-- ==== Sys2Proof/Word.lean ====
section
/-! DEFINITION. The datum of ORCP: every value that crosses the block is one byte (00_scope.md R8). -/

namespace Sys2Proof

/-- One byte `b[7:0]`; bit 7 is the most significant (00_scope.md R9).  Its unsigned reading `u(b)` is
`BitVec.toNat b` and its two's complement reading `s(b)` is `BitVec.toInt b`. -/
abbrev Byte := BitVec 8

end Sys2Proof
end

