-- ==== Sys2Proof/Config.lean ====
section
/-! DEFINITION. The fixed constants of ORCP, the parameters of a model instance (00_scope.md R7), and the one
value the spec leaves undefined. -/

namespace Sys2Proof

/-- `CDC_VIEW`: when one side's ring update is visible to the other (00_scope.md R7, 20_memory.md R60, R64). -/
inductive CdcView where
  | immediate
  | lagged
deriving DecidableEq, Repr

/-- The parameters of a model instance that are open or kept open (00_scope.md R7).  `OVERFLOW_POLICY` is
DropNewest and `MAG_RANGE_POLICY` is Pause, as that rule fixes them; neither has another value here. -/
structure Config where
  /-- `C`, the ring buffer's capacity in bytes -/
  capacity : Nat
  /-- `MAX_COMPARE`, the PWM peripheral's largest compare value -/
  maxCompare : Nat
  /-- `CDC_VIEW` -/
  cdcView : CdcView
  /-- `MARKER_RESTARTS_FRAME` -/
  markerRestartsFrame : Bool
  /-- `DISPATCH_ATOMIC` -/
  dispatchAtomic : Bool
deriving DecidableEq, Repr

/-- `START_MARKER`, the byte that opens a frame (00_scope.md R7). -/
def Config.startMarker : Byte := 0xFF

/-- `DUTY_MAX`, the largest duty-cycle percent (00_scope.md R7). -/
def Config.dutyMax : Nat := 100

/-- The parameters the spec accepts: `1 ≤ C ≤ 255` and `MAX_COMPARE ≥ 1`; others are refused
(93_implementation_defined.md U6, U7). -/
abbrev Config.Supported (c : Config) : Prop :=
  1 ≤ c.capacity ∧ c.capacity ≤ 255 ∧ 1 ≤ c.maxCompare

/-- `CW`, the least width that holds `MAX_COMPARE` (00_scope.md R8). -/
def Config.compareWidth (c : Config) : Nat := c.maxCompare.log2 + 1

/-- The decided policies, with `C = 8` and `MAX_COMPARE = 255`.
DESIGN CHOICE (log entry 1, unsafe): the spec gives `C` and `MAX_COMPARE` no value; these are the values its
vectors use. -/
def Config.standard : Config where
  capacity := 8
  maxCompare := 255
  cdcView := .immediate
  markerRestartsFrame := false
  dispatchAtomic := true

/-- FREE VALUE (log entry 11, safe): what `scale(d)` yields for a duty `d > 100`, which the spec leaves undefined
(43_pwm_output.md R127).  Arguments: the duty and `MAX_COMPARE`. -/
opaque Config.scaleUndefined : Nat → Nat → Nat

end Sys2Proof
end

