-- ==== Sys2Proof/Syntax.lean ====
section
/-! DEFINITION. The instructions of ORCP, one constructor per row of spec/opcode_table.json, and the strobes. -/

namespace Sys2Proof

/-- An instruction in the sense of 00_scope.md R6: a command frame or a port-level operation. -/
inductive Instr where
  /-- FORWARD m (42_dispatch_commands.md R111) -/
  | forward (m : Byte)
  /-- RIGHT m (R112) -/
  | right (m : Byte)
  /-- BACKWARD m (R113) -/
  | backward (m : Byte)
  /-- LEFT m (R114) -/
  | left (m : Byte)
  /-- PAUSE, the canonical frame `FF 00 00 00` (R115, 30_encoding.md R85) -/
  | pause
  /-- PAUSE.checksum_fail: a completed frame with `op ^ m ≠ c` (60_exceptions.md R147) -/
  | pauseChecksumFail (op m c : Byte)
  /-- PAUSE.bad_opcode: a valid frame with an opcode outside 1..4 (R150) -/
  | pauseBadOpcode (op m : Byte)
  /-- PAUSE.bad_magnitude: a valid frame with opcode 1..4 and a magnitude above 100 (R151) -/
  | pauseBadMagnitude (op m : Byte)
  /-- RESET, strobe `rst` (70_reset_and_hazards.md R170) -/
  | reset
  /-- PUSH(b), strobe `w_valid` with `w_data = b` (40_ringbuffer_ops.md R90) -/
  | push (b : Byte)
  /-- CYCLE, strobe `c_tick` (44_control_cycle.md R135) -/
  | cycle
  /-- CLEAR, strobe `clr` (40_ringbuffer_ops.md R93) -/
  | clear
  /-- SAMPLE, strobe `p_tick` (43_pwm_output.md R125) -/
  | sample
  /-- AVAILABLE, no strobe (40_ringbuffer_ops.md R92) -/
  | available
  /-- POP, internal (40_ringbuffer_ops.md R91) -/
  | pop
  /-- FRAME_STEP(b), internal (41_framer_ops.md R100) -/
  | frameStep (b : Byte)
  /-- PARSE, internal (41_framer_ops.md R102) -/
  | parse
  /-- VALIDATE, internal (41_framer_ops.md R103) -/
  | validate
  /-- DISPATCH, internal (42_dispatch_commands.md R110) -/
  | dispatch
deriving DecidableEq, Repr

/-- The five strobes of the vector `S[4:0] = {rst, w_valid, c_tick, clr, p_tick}` (30_encoding.md R83). -/
inductive Strobe where
  | rst
  | wValid
  | cTick
  | clr
  | pTick
deriving DecidableEq, Repr

end Sys2Proof
end

