-- ==== Sys2Proof/WellFormed.lean ====
section
/-! DEFINITION. Which instructions have an encoding with their operands: the `constraint` column of
spec/opcode_table.json. -/

namespace Sys2Proof

/-- The opcodes that select a Move (30_encoding.md R78). -/
def isMoveOpcode (op : Byte) : Bool :=
  op == 1 || op == 2 || op == 3 || op == 4

/-- The magnitudes a Move may carry, `u(m) ≤ 100` (30_encoding.md R77). -/
def magnitudeInRange (m : Byte) : Bool :=
  decide (m.toNat ≤ Config.dutyMax)

/-- The constraint of the instruction's row.  `pauseBadOpcode 0 0` is left to the canonical `pause`, a special case
of that row (30_encoding.md R79, R85). -/
def wellFormed : Instr → Bool
  | .forward m => magnitudeInRange m
  | .right m => magnitudeInRange m
  | .backward m => magnitudeInRange m
  | .left m => magnitudeInRange m
  | .pause => true
  | .pauseChecksumFail op m c => op ^^^ m != c
  | .pauseBadOpcode op m => !isMoveOpcode op && !(op == 0 && m == 0)
  | .pauseBadMagnitude op m => isMoveOpcode op && !magnitudeInRange m
  | .reset => true
  | .push _ => true
  | .cycle => true
  | .clear => true
  | .sample => true
  | .available => true
  | .pop => true
  | .frameStep _ => true
  | .parse => true
  | .validate => true
  | .dispatch => true

end Sys2Proof
end

