-- ==== Sys2Proof/Decode.lean ====
section
/-! DEFINITION. The decoder of command frames and of the strobe vector, total on any bytes, and after it the encoder
(30_encoding.md). -/

namespace Sys2Proof

/-! ### Command frames -/

/-- The Move row an opcode 1..4 selects (30_encoding.md R78). -/
def decodeMove (op m : Byte) : Instr :=
  if op = 1 then .forward m
  else if op = 2 then .right m
  else if op = 3 then .backward m
  else .left m

/-- Decoding a completed frame: the four tests of 30_encoding.md R79 in their order.  Within test 2 the payload
`00 00 00` is the canonical PAUSE (R85). -/
def decodePayload (op m c : Byte) : Instr :=
  if op ^^^ m ≠ c then .pauseChecksumFail op m c
  else if isMoveOpcode op = false then
    if op = 0 ∧ m = 0 then .pause else .pauseBadOpcode op m
  else if magnitudeInRange m = false then .pauseBadMagnitude op m
  else decodeMove op m

/-! ### Strobes -/

/-- The place of a strobe in `S[4:0] = {rst, w_valid, c_tick, clr, p_tick}` (30_encoding.md R83). -/
def Strobe.place : Strobe → Nat
  | .rst => 4
  | .wValid => 3
  | .cTick => 2
  | .clr => 1
  | .pTick => 0

/-- The vector with that one strobe asserted. -/
def Strobe.mask (l : Strobe) : BitVec 5 := 1#5 <<< l.place

/-- Whether the strobe is asserted in `S`. -/
def Strobe.asserted (S : BitVec 5) (l : Strobe) : Bool := S.getLsbD l.place

/-- The operation a strobe starts; only `w_valid` takes `w_data` (30_encoding.md R83). -/
def Strobe.operation (wData : Byte) : Strobe → Instr
  | .rst => .reset
  | .wValid => .push wData
  | .cTick => .cycle
  | .clr => .clear
  | .pTick => .sample

/-- The order in which strobes are taken when nothing says otherwise.
DESIGN CHOICE (log entry 9): any order is allowed (60_exceptions.md R155). -/
def Strobe.usualOrder : List Strobe := [.wValid, .cTick, .clr, .pTick]

/-- The operation that the asserted strobes start first, and the strobes still asserted after it.  `rst` overrides
every other strobe (30_encoding.md R83); the others are taken one by one, first the one that `order` prefers, so
that every order is some `order` (60_exceptions.md R155).  `none` when no strobe is asserted. -/
def decodeStrobes (order : List Strobe) (S : BitVec 5) (wData : Byte) : Option (Instr × BitVec 5) :=
  if Strobe.asserted S .rst then some (.reset, 0)
  else
    match (order ++ Strobe.usualOrder).find? (Strobe.asserted S) with
    | none => none
    | some l => some (l.operation wData, S &&& ~~~ l.mask)

/-! ### Bytes -/

/-- Why bytes are no instruction. -/
inductive DecodeError where
  /-- there is no byte -/
  | noBytes
  /-- a marker with fewer than three bytes after it: the parser waits (30_encoding.md R81) -/
  | truncatedFrame
  /-- a strobe vector without its `w_data` byte -/
  | truncatedStrobes
  /-- a strobe vector with no strobe asserted -/
  | noStrobe
  /-- neither the marker nor a strobe vector (bits 7..5 of it are 0) -/
  | neitherMarkerNorStrobes
deriving DecidableEq, Repr

/-- The payload after a marker (30_encoding.md R70). -/
def decodeFrameBytes : List Byte → Except DecodeError (Instr × List Byte)
  | op :: m :: c :: rest => .ok (decodePayload op m c, rest)
  | _ => .error .truncatedFrame

/-- A strobe word: the vector `S` in bits 4..0 of its first byte, then `w_data`.
DESIGN CHOICE (log entry 18): the spec gives the strobes no byte form. -/
def decodeStrobeBytes (b : Byte) : List Byte → Except DecodeError (Instr × List Byte)
  | [] => .error .truncatedStrobes
  | d :: rest =>
    if b.toNat < 32 then
      match decodeStrobes [] (b.setWidth 5) d with
      | some (i, _) => .ok (i, rest)
      | none => .error .noStrobe
    else .error .neitherMarkerNorStrobes

/-- The instruction at the head of the bytes, and the bytes after it.  A first byte `0xFF` opens a command frame. -/
def decode : List Byte → Except DecodeError (Instr × List Byte)
  | [] => .error .noBytes
  | b :: rest =>
    if b = Config.startMarker then decodeFrameBytes rest else decodeStrobeBytes b rest

/-- Byte `k` of a number, byte 0 the least significant. -/
def byteOf (w k : Nat) : Byte := BitVec.ofNat 8 (w / 256 ^ k)

/-- The bytes of a table word in the order the hardware takes them.  A frame is one 32-bit word whose first byte in
time is the most significant, `F[31:0] = {F0, F1, F2, F3}` (30_encoding.md R71); a strobe word has `S` in its low
byte and `w_data` above it. -/
def tableBytes (nbits w : Nat) : List Byte :=
  if nbits ≤ 16 then [byteOf w 0, byteOf w 1] else [byteOf w 3, byteOf w 2, byteOf w 1, byteOf w 0]

/-- The instruction the decoder reads from a word of spec/opcode_table.json, when it takes all of the bytes. -/
def decodeTableWord (nbits w : Nat) : Option Instr :=
  match decode (tableBytes nbits w) with
  | .ok (i, []) => some i
  | .ok (_, _ :: _) => none
  | .error _ => none

/-! ### The encoder -/

/-- A frame with a correct checksum (30_encoding.md R70, R75). -/
def frameBytes (op m : Byte) : List Byte := [Config.startMarker, op, m, op ^^^ m]

/-- A strobe word with one strobe asserted. -/
def strobeBytes (l : Strobe) (wData : Byte) : List Byte := [l.mask.setWidth 8, wData]

/-- The bytes of an instruction; `none` for the operations the table gives no encoding. -/
def encode : Instr → Option (List Byte)
  | .forward m => some (frameBytes 1 m)
  | .right m => some (frameBytes 2 m)
  | .backward m => some (frameBytes 3 m)
  | .left m => some (frameBytes 4 m)
  | .pause => some (frameBytes 0 0)
  | .pauseChecksumFail op m c => some [Config.startMarker, op, m, c]
  | .pauseBadOpcode op m => some (frameBytes op m)
  | .pauseBadMagnitude op m => some (frameBytes op m)
  | .reset => some (strobeBytes .rst 0)
  | .push b => some (strobeBytes .wValid b)
  | .cycle => some (strobeBytes .cTick 0)
  | .clear => some (strobeBytes .clr 0)
  | .sample => some (strobeBytes .pTick 0)
  | .available => none
  | .pop => none
  | .frameStep _ => none
  | .parse => none
  | .validate => none
  | .dispatch => none

end Sys2Proof
end

