-- ==== Sys2Proof/Machine/State.lean ====
section
/-! DEFINITION. The state of ORCP as plain data (10_state.md R20, 20_memory.md R64), the reasons a step can stop,
and the state right after reset. -/

namespace Sys2Proof.Machine

/-- The ring buffer storage (10_state.md R21): the cells that do not read as `unwrittenByte`, addresses strictly
rising. -/
abbrev Memory := List Host.Cell

/-- What a cell that no PUSH has written reads as.
DESIGN CHOICE (log entry 2, unsafe): the spec says "unspecified: any byte" (10_state.md R39, U4). -/
def unwrittenByte : Byte := 0

/-- The registers a DISPATCH writes, named for `DISPATCH_ATOMIC = false` (93_implementation_defined.md U19). -/
inductive MotorReg where
  | dirA
  | dirB
  | duty
deriving DecidableEq, Repr

/-- How far a CYCLE in progress is (44_control_cycle.md R136; log entry 7). -/
inductive CyclePhase where
  /-- no CYCLE in progress: the consumer waits for `c_tick` -/
  | idle
  /-- PARSE: the next consumer step is a pass of its loop -/
  | parsing
  /-- the next consumer step is the tail -/
  | tail
  /-- only with `DISPATCH_ATOMIC = false`: the tail has decided the motor state `{a, b}`, `d`; the registers `left`
  are still to be written -/
  | writing (a b : Bool) (d : Byte) (left : List MotorReg)
deriving DecidableEq, Repr

/-- The side of the crossing whose lag a SYNC step shortens (20_memory.md R64). -/
inductive LagSide where
  | consumer
  | producer
deriving DecidableEq, Repr

/-- One entry of the schedule: what the environment does next, or which agent moves next (30_encoding.md R84,
20_memory.md R58; log entry 5). -/
inductive Input where
  /-- the strobe vector `S[4:0]` with `w_data`; each operation it starts runs to completion, taken in the order that
  `order` prefers -/
  | strobes (S : BitVec 5) (wData : Byte) (order : List Strobe)
  /-- `c_tick`, its CYCLE taken one atomic step at a time -/
  | beginCycle
  /-- the consumer takes the next atomic step of the CYCLE in progress; `k` chooses among the writes left when
  `DISPATCH_ATOMIC = false` -/
  | consumerTurn (k : Nat)
  /-- a SYNC step -/
  | sync (side : LagSide)
  /-- the consumer runs AVAILABLE -/
  | readAvailable
deriving DecidableEq, Repr

/-- What a value-returning operation hands to its caller (00_scope.md R10; log entry 8). -/
inductive OpResult where
  /-- nothing returned yet -/
  | none
  /-- POP: `Some(b)` or `None` -/
  | popped (b : Option Byte)
  /-- AVAILABLE: the number of unread bytes -/
  | unread (n : Byte)
  /-- VALIDATE: whether the frame is valid -/
  | valid (v : Bool)
deriving DecidableEq, Repr

/-- ORCP's whole state: exactly the fields of 10_state.md R20. -/
structure Registers where
  /-- the cells `buf[0..C−1]` (10_state.md R21) -/
  buf : Memory
  /-- the write index (R22) -/
  wr : Byte
  /-- the read index (R23) -/
  rd : Byte
  /-- the count of unread bytes (R25) -/
  count : Byte
  /-- `in_frame` (R28) -/
  inFrame : Bool
  /-- the payload index, 0 ≤ idx ≤ 2 (R29) -/
  idx : Fin 3
  /-- `x[0]`, opcode (R24) -/
  x0 : Byte
  /-- `x[1]`, magnitude (R24) -/
  x1 : Byte
  /-- `x[2]`, checksum (R24) -/
  x2 : Byte
  /-- `new_data` (R30) -/
  newData : Bool
  /-- the duty-cycle percent (R33) -/
  duty : Byte
  /-- pin A, `true` is high (R34) -/
  dirA : Bool
  /-- pin B, `true` is high (R34) -/
  dirB : Bool
  /-- the PWM compare value (R35) -/
  cmp : Nat
  /-- `w_ack`, the result of the last PUSH (R32) -/
  wAck : Bool
deriving DecidableEq, Repr

/-- The two numbers the state gains under `CDC_VIEW = Lagged` (20_memory.md R64); both stay 0 under Immediate. -/
structure Lags where
  /-- `lag_c`: accepted pushes the consumer cannot yet see -/
  lagC : Nat
  /-- `lag_p`: completed pops the producer cannot yet see -/
  lagP : Nat
deriving DecidableEq, Repr

/-- What stands beside ORCP's state and is none of it: the constants and inputs that 10_state.md R38 calls no state, the
place a CYCLE in progress has reached, and the value handed to a caller (log entry 28). -/
structure RunContext where
  /-- the CYCLE in progress (44_control_cycle.md R136; log entry 7) -/
  phase : CyclePhase
  /-- the parameters of this instance (00_scope.md R7, 10_state.md R38 (a)); no step changes them -/
  cfg : Config
  /-- the schedule still to come (10_state.md R38 (b); log entry 5) -/
  inputs : List Input
  /-- the value the last value-returning operation returned; no operation reads it (log entry 8) -/
  result : OpResult
deriving DecidableEq, Repr

/-- What a step runs on: ORCP's state (`Registers`, and `Lags` under Lagged) within the context of its run. -/
structure State extends Registers, Lags, RunContext
deriving DecidableEq, Repr

/-- Why a step stops with a fault. -/
inductive Fault where
  /-- Raised by PUSH and POP, and by PARSE and CYCLE through POP, when the index names no cell, `a ≥ C`
  (20_memory.md R50).  Safe: no reachable state has such an index (10_state.md R26 (b)). -/
  | noSuchCell (a : Nat)
deriving DecidableEq, Repr

/-- Why a step is refused. -/
inductive Refusal where
  /-- Raised by an arm of `exec` whose instruction has no meaning yet.  Safe. -/
  | notModelled (mnemonic : String)
  /-- Raised by `step` for parameters the spec refuses: `C = 0`, `C ≥ 256` or `MAX_COMPARE = 0`
  (93_implementation_defined.md U6, U7).  Safe. -/
  | unsupportedParameters
deriving DecidableEq, Repr

/-- The machine right after reset (10_state.md R39).  `buf` and `x` are unspecified there: the zeros are a
DESIGN CHOICE (log entries 2, 3, unsafe), as are the parameters (log entry 1, unsafe) and the empty schedule (log
entry 5). -/
def State.reset : State where
  buf := []
  wr := 0
  rd := 0
  count := 0
  inFrame := false
  idx := 0
  x0 := 0
  x1 := 0
  x2 := 0
  newData := false
  duty := 0
  dirA := false
  dirB := true
  cmp := 0
  wAck := false
  lagC := 0
  lagP := 0
  phase := .idle
  cfg := Config.standard
  inputs := []
  result := .none

end Sys2Proof.Machine
end

