-- ==== Sys2Proof/Machine/Ops.lean ====
section
/-! DEFINITION. The named operations over memory and registers, the ring and the parser steps, and the Pause
outcome. -/

namespace Sys2Proof.Machine

/-- What a meaning answers. -/
abbrev StepResult := Host.Outcome State Fault Refusal

/-- Do `f` after a step that gave a next state; a stop stays a stop. -/
def andThen (r : StepResult) (f : State → StepResult) : StepResult :=
  match r with
  | .next t => f t
  | .fault e => .fault e
  | .refused e => .refused e

/-! ### Cells -/

/-- The byte at an address of the storage. -/
def Memory.read : Memory → Nat → Byte
  | [], _ => unwrittenByte
  | (k, v) :: rest, a => if k = a then v else Memory.read rest a

/-- The entry for one cell put in front, unless the cell reads so without it. -/
def Memory.put (a : Nat) (v : Byte) (m : Memory) : Memory :=
  if v = unwrittenByte then m else (a, v) :: m

/-- Write one byte, keeping the canonical form. -/
def Memory.write : Memory → Nat → Byte → Memory
  | [], a, v => Memory.put a v []
  | (k, u) :: rest, a, v =>
    if k < a then (k, u) :: Memory.write rest a v
    else if k = a then Memory.put a v rest
    else Memory.put a v ((k, u) :: rest)

/-- The canonical form: addresses strictly rising, no entry that reads as an unlisted address does. -/
def Memory.wf : Memory → Bool
  | [] => true
  | (k, v) :: rest => v != unwrittenByte && rest.all (fun c => decide (k < c.1)) && Memory.wf rest

/-- `MemRead(a, 1)`; no cell at `a ≥ C` (00_scope.md R10, 20_memory.md R50). -/
def readCell (a : Byte) (s : State) : Option Byte :=
  if a.toNat < s.cfg.capacity then some (Memory.read s.buf a.toNat) else none

/-! ### Writing registers -/

/-- Replace the storage. -/
def State.setBuf (m : Memory) (s : State) : State := { s with buf := m }

/-- `wr`, `rd` and `count`. -/
def State.setRing (wr rd count : Byte) (s : State) : State := { s with wr := wr, rd := rd, count := count }

/-- The two lags. -/
def State.setLags (c p : Nat) (s : State) : State := { s with lagC := c, lagP := p }

/-- `w_ack`. -/
def State.setAck (b : Bool) (s : State) : State := { s with wAck := b }

/-- `x[i] <- v` (00_scope.md R10). -/
def State.setPayload (i : Fin 3) (v : Byte) (s : State) : State :=
  { s with
    x0 := if i = 0 then v else s.x0
    x1 := if i = 1 then v else s.x1
    x2 := if i = 2 then v else s.x2 }

/-- `in_frame` and `idx`. -/
def State.setParser (f : Bool) (i : Fin 3) (s : State) : State := { s with inFrame := f, idx := i }

/-- `new_data`. -/
def State.setNewData (n : Bool) (s : State) : State := { s with newData := n }

/-- `dir_a`, `dir_b` and `duty` in one indivisible step (42_dispatch_commands.md R110). -/
def State.setMotor (a b : Bool) (d : Byte) (s : State) : State := { s with dirA := a, dirB := b, duty := d }

/-- `cmp`. -/
def State.setCmp (n : Nat) (s : State) : State := { s with cmp := n }

/-- The progress of the CYCLE. -/
def State.setPhase (p : CyclePhase) (s : State) : State := { s with phase := p }

/-- The schedule. -/
def State.setInputs (l : List Input) (s : State) : State := { s with inputs := l }

/-- The returned value. -/
def State.setResult (r : OpResult) (s : State) : State := { s with result := r }

/-! ### Pause -/

/-- The causes of a Pause; a name for the reader, stored nowhere (60_exceptions.md R145, R152). -/
inductive PauseCause where
  | checksumFail
  | badOpcode
  | badMagnitude
deriving DecidableEq, Repr

/-- `raise Pause(cause)`: the one exceptional outcome, taken in one indivisible step (60_exceptions.md R149).
Nothing is saved and there is no return: the next completed frame leaves it (R157, R159). -/
def raisePause (_cause : PauseCause) (s : State) : State := s.setMotor false true 0

/-! ### The ring -/

/-- `(a + 1) mod C` (00_scope.md R10, 40_ringbuffer_ops.md R94). -/
def nextIndex (a : Byte) (s : State) : Byte :=
  if a.toNat + 1 < s.cfg.capacity then a + 1 else 0

/-- The `count` the consumer sees: `count − lag_c` under Lagged (20_memory.md R60, R64). -/
def consumerCount (s : State) : Nat :=
  match s.cfg.cdcView with
  | .immediate => s.count.toNat
  | .lagged => s.count.toNat - s.lagC

/-- The `count` the producer sees: `count + lag_p` under Lagged (20_memory.md R60, R64). -/
def producerCount (s : State) : Nat :=
  match s.cfg.cdcView with
  | .immediate => s.count.toNat
  | .lagged => s.count.toNat + s.lagP

/-- An accepted push or a completed pop adds 1 to the other side's lag, under Lagged only (20_memory.md R64). -/
def lagAfter (lag : Nat) (s : State) : Nat :=
  match s.cfg.cdcView with
  | .immediate => lag
  | .lagged => lag + 1

/-- PUSH's append, when the buffer is not full (40_ringbuffer_ops.md R90). -/
def ringAppend (b : Byte) (s : State) : StepResult :=
  if s.wr.toNat < s.cfg.capacity then
    .next ((((s.setBuf (Memory.write s.buf s.wr.toNat b)).setRing (nextIndex s.wr s) s.rd (s.count + 1)).setLags
      (lagAfter s.lagC s) s.lagP).setAck true)
  else .fault (.noSuchCell s.wr.toNat)

/-- PUSH: refuse the newest byte when full, else append it (40_ringbuffer_ops.md R90, 60_exceptions.md R148). -/
def ringPush (b : Byte) (s : State) : StepResult :=
  if producerCount s = s.cfg.capacity then .next (s.setAck false) else ringAppend b s

/-- The registers after a POP that returned a byte (40_ringbuffer_ops.md R91). -/
def ringDrop (s : State) : State :=
  (s.setRing s.wr (nextIndex s.rd s) (s.count - 1)).setLags s.lagC (lagAfter s.lagP s)

/-- POP: its result and what it leaves (40_ringbuffer_ops.md R91). -/
def ringPop (s : State) : Except Fault (Option Byte × State) :=
  if consumerCount s = 0 then .ok (none, s)
  else
    match readCell s.rd s with
    | some b => .ok (some b, ringDrop s)
    | none => .error (.noSuchCell s.rd.toNat)

/-- CLEAR: the ring is empty, no lag is left; no cell changes (40_ringbuffer_ops.md R93, 20_memory.md R64). -/
def ringClear (s : State) : State := (s.setRing 0 0 0).setLags 0 0

/-- A SYNC step: 1 less of one non-zero lag, under Lagged only (20_memory.md R64). -/
def syncLag (side : LagSide) (s : State) : State :=
  match s.cfg.cdcView, side with
  | .immediate, _ => s
  | .lagged, .consumer => s.setLags (s.lagC - 1) s.lagP
  | .lagged, .producer => s.setLags s.lagC (s.lagP - 1)

end Sys2Proof.Machine
end

