-- ==== Sys2Proof/Machine/Operands.lean ====
section
/-! DEFINITION. The operands of a command: the payload registers, the magnitude, the decoded motor command, the
compare value. -/

namespace Sys2Proof.Machine

/-- `x[i]` (10_state.md R24). -/
def State.payload (i : Fin 3) (s : State) : Byte :=
  if i = 0 then s.x0 else if i = 1 then s.x1 else s.x2

/-- The four directions of the data model (42_dispatch_commands.md R117). -/
inductive Direction where
  | forward
  | right
  | backward
  | left
deriving DecidableEq, Repr

/-- `MotorCommandOutcome`: `Move` with a speed, or `Invalid`, which pauses (42_dispatch_commands.md R117); held in no
register. -/
inductive MotorCommand where
  | move (d : Direction) (speed : Byte)
  | invalid (cause : PauseCause)
deriving DecidableEq, Repr

/-- The direction an opcode names (30_encoding.md R78). -/
def directionOf (op : Byte) : Option Direction :=
  if op = 1 then some .forward
  else if op = 2 then some .right
  else if op = 3 then some .backward
  else if op = 4 then some .left
  else none

/-- Pin A of a direction (30_encoding.md R78, R87). -/
def Direction.pinA : Direction → Bool
  | .forward => false
  | .right => false
  | .backward => true
  | .left => true

/-- Pin B of a direction (30_encoding.md R78, R87). -/
def Direction.pinB : Direction → Bool
  | .forward => false
  | .right => true
  | .backward => true
  | .left => false

/-- The magnitude operand for the duty register: the byte itself when it is 0..100, else none (30_encoding.md R77). -/
def dutyOperand (m : Byte) : Option Byte :=
  if m.toNat ≤ Config.dutyMax then some m else none

/-- The command with a given direction and magnitude (42_dispatch_commands.md R111 to R114, 60_exceptions.md R151). -/
def commandOf (d : Direction) (m : Byte) : MotorCommand :=
  match dutyOperand m with
  | some speed => .move d speed
  | none => .invalid .badMagnitude

/-- The command a payload names: opcode test, then magnitude test (42_dispatch_commands.md R110). -/
def motorCommand (op m : Byte) : MotorCommand :=
  match directionOf op with
  | some d => commandOf d m
  | none => .invalid .badOpcode

/-- Drive the motor registers by a command (42_dispatch_commands.md R110). -/
def runCommand (c : MotorCommand) (s : State) : State :=
  match c with
  | .move d speed => s.setMotor d.pinA d.pinB speed
  | .invalid cause => raisePause cause s

/-- `scale(d)` for `d ≤ 100` (43_pwm_output.md R126). -/
def scale (maxCompare d : Nat) : Nat := (d * maxCompare + 50) / 100

/-- The compare value SAMPLE computes.  A duty above 100 is never held (10_state.md R33); there the value is free,
within the `CW` bits of the register (43_pwm_output.md R127; log entry 11). -/
def compareValue (c : Config) (duty : Byte) : Nat :=
  if duty.toNat ≤ Config.dutyMax then scale c.maxCompare duty.toNat
  else Config.scaleUndefined duty.toNat c.maxCompare % 2 ^ c.compareWidth

end Sys2Proof.Machine
end

