-- ==== Sys2Proof/Machine/Flags.lean ====
section
/-! DEFINITION. The flags `in_frame` and `new_data` with the payload index, and the checksum test. -/

namespace Sys2Proof.Machine

/-- Whether the completed frame is valid: `(x[0] ^ x[1]) = x[2]` (41_framer_ops.md R103). -/
def checksumValid (s : State) : Bool := s.x0 ^^^ s.x1 == s.x2

/-- Block 1 of FRAME_STEP: payload collection, only when already in-frame (41_framer_ops.md R100). -/
def collectPayload (b : Byte) (s : State) : State :=
  if s.inFrame = true then
    if s.idx = 2 then ((s.setPayload s.idx b).setParser false 0).setNewData true
    else (s.setPayload s.idx b).setParser true (s.idx + 1)
  else s

/-- Block 2 of FRAME_STEP: the marker test, on every byte whatever the state (41_framer_ops.md R100). -/
def markerTest (b : Byte) (s : State) : State :=
  if b = Config.startMarker then s.setParser true (if s.cfg.markerRestartsFrame = true then 0 else s.idx) else s

/-- FRAME_STEP: the two blocks in this order, in one step (41_framer_ops.md R100). -/
def parserStep (b : Byte) (s : State) : State := markerTest b (collectPayload b s)

/-- The exit condition of PARSE (41_framer_ops.md R102). -/
def parseDone (s : State) : Bool := consumerCount s == 0 || s.newData

end Sys2Proof.Machine
end

