-- ==== Sys2Proof/Machine/Commands.lean ====
section
/-! DEFINITION. The meanings of DISPATCH, of the four Move commands and of the Pause rows (42_dispatch_commands.md). -/

namespace Sys2Proof.Machine

/-- What DISPATCH does to the motor registers (R110). -/
def dispatchFrame (s : State) : State := runCommand (motorCommand s.x0 s.x1) s

/-- DISPATCH() (R110). -/
def execDispatch (s : State) : StepResult := .next (dispatchFrame s)

/-- FORWARD m (R111). -/
def execForward (m : Byte) (s : State) : StepResult := .next (runCommand (commandOf .forward m) s)

/-- RIGHT m (R112). -/
def execRight (m : Byte) (s : State) : StepResult := .next (runCommand (commandOf .right m) s)

/-- BACKWARD m (R113). -/
def execBackward (m : Byte) (s : State) : StepResult := .next (runCommand (commandOf .backward m) s)

/-- LEFT m (R114). -/
def execLeft (m : Byte) (s : State) : StepResult := .next (runCommand (commandOf .left m) s)

/-- PAUSE, the canonical frame: an opcode outside 1..4 (R115, 30_encoding.md R85). -/
def execPause (s : State) : StepResult := .next (raisePause .badOpcode s)

/-- PAUSE.checksum_fail: neither opcode nor magnitude is looked at (60_exceptions.md R147). -/
def execPauseChecksumFail (_op _m _c : Byte) (s : State) : StepResult := .next (raisePause .checksumFail s)

/-- PAUSE.bad_opcode (60_exceptions.md R150). -/
def execPauseBadOpcode (_op _m : Byte) (s : State) : StepResult := .next (raisePause .badOpcode s)

/-- PAUSE.bad_magnitude (60_exceptions.md R151). -/
def execPauseBadMagnitude (_op _m : Byte) (s : State) : StepResult := .next (raisePause .badMagnitude s)

end Sys2Proof.Machine
end

