-- ==== Sys2Proof/Machine/Framer.lean ====
section
/-! DEFINITION. The meanings of FRAME_STEP, PARSE and VALIDATE (41_framer_ops.md). -/

namespace Sys2Proof.Machine

/-- FRAME_STEP(b) (R100). -/
def execFrameStep (b : Byte) (s : State) : StepResult := .next (parserStep b s)

/-- A pass of PARSE that has found a byte: one POP, then one FRAME_STEP (R102, 20_memory.md R58). -/
def parsePass (s : State) : StepResult :=
  match ringPop s with
  | .ok (some b, t) => .next (parserStep b t)
  | .ok (none, t) => .next t
  | .error f => .fault f

/-- At most `n` passes of PARSE's loop. -/
def parseLoop : Nat → State → StepResult
  | 0, s => .next s
  | n + 1, s => if parseDone s = true then .next s else andThen (parsePass s) (parseLoop n)

/-- PARSE() with no other agent's step between its passes (R102).  Each pass takes one byte, so the bytes the consumer
sees bound the loop. -/
def execParse (s : State) : StepResult := parseLoop (consumerCount s) s

/-- VALIDATE() (R103): the boolean goes to the caller by `result`; no state changes. -/
def execValidate (s : State) : StepResult := .next (s.setResult (.valid (checksumValid s)))

end Sys2Proof.Machine
end

