-- ==== Sys2Proof/Machine/RingBuffer.lean ====
section
/-! DEFINITION. The meanings of PUSH, POP, AVAILABLE and CLEAR (40_ringbuffer_ops.md). -/

namespace Sys2Proof.Machine

/-- PUSH(b) (R90). -/
def execPush (b : Byte) (s : State) : StepResult := ringPush b s

/-- POP() (R91): the byte, or `None`, goes to the caller by `result`; on the empty buffer no state changes. -/
def execPop (s : State) : StepResult :=
  match ringPop s with
  | .ok (b, t) => .next (t.setResult (.popped b))
  | .error f => .fault f

/-- AVAILABLE() (R92): the number goes to the caller by `result`; no state changes. -/
def execAvailable (s : State) : StepResult :=
  .next (s.setResult (.unread (BitVec.ofNat 8 (consumerCount s))))

/-- CLEAR() (R93). -/
def execClear (s : State) : StepResult := .next (ringClear s)

end Sys2Proof.Machine
end

