-- ==== Sys2Proof/Machine/Control.lean ====
section
/-! DEFINITION. The meanings of CYCLE (44_control_cycle.md) and RESET (70_reset_and_hazards.md). -/

namespace Sys2Proof.Machine

/-- The tail of CYCLE, one atomic step (R135): validate, dispatch or pause, and discard the frame. -/
def cycleTail (s : State) : State :=
  if s.newData = true then
    (if checksumValid s = true then dispatchFrame s else raisePause .checksumFail s).setNewData false
  else s

/-- CYCLE() run to completion with no other agent's step inside (R135).  While a CYCLE is in progress a second
`c_tick` has no effect (R136). -/
def execCycle (s : State) : StepResult :=
  if s.phase = .idle then andThen (execParse s) (fun t => .next (cycleTail t)) else .next s

/-- RESET() (70_reset_and_hazards.md R170): `buf` and `x` are not written, a CYCLE in progress is abandoned, the lags
become 0 (20_memory.md R64). -/
def execReset (s : State) : StepResult :=
  .next (((((((ringClear s).setParser false 0).setNewData false).setMotor false true 0).setCmp 0).setAck false).setPhase
    .idle)

end Sys2Proof.Machine
end

