-- ==== Sys2Proof/Machine/Pwm.lean ====
section
/-! DEFINITION. The meaning of SAMPLE and the output ports (43_pwm_output.md, 10_state.md R37). -/

namespace Sys2Proof.Machine

/-- SAMPLE() (43_pwm_output.md R125). -/
def execSample (s : State) : StepResult := .next (s.setCmp (compareValue s.cfg s.duty))

/-- The output ports (10_state.md R37). -/
structure Ports where
  wAck : Bool
  avail : Byte
  duty : Byte
  dirA : Bool
  dirB : Bool
  cmp : Nat
deriving DecidableEq, Repr

/-- What the ports show at all times (10_state.md R37, 40_ringbuffer_ops.md R92, 43_pwm_output.md R128, R129). -/
def State.ports (s : State) : Ports where
  wAck := s.wAck
  avail := BitVec.ofNat 8 (consumerCount s)
  duty := s.duty
  dirA := s.dirA
  dirB := s.dirB
  cmp := s.cmp

end Sys2Proof.Machine
end

