-- ==== Sys2Proof/Machine/Dispatch.lean ====
section
/-! DEFINITION. One arm per instruction. -/

namespace Sys2Proof.Machine

def exec (i : Instr) (s : State) : Host.Outcome State Fault Refusal :=
  match i with
  | .forward m => Sys2Proof.Machine.execForward m s
  | .right m => Sys2Proof.Machine.execRight m s
  | .backward m => Sys2Proof.Machine.execBackward m s
  | .left m => Sys2Proof.Machine.execLeft m s
  | .pause => Sys2Proof.Machine.execPause s
  | .pauseChecksumFail op m c => Sys2Proof.Machine.execPauseChecksumFail op m c s
  | .pauseBadOpcode op m => Sys2Proof.Machine.execPauseBadOpcode op m s
  | .pauseBadMagnitude op m => Sys2Proof.Machine.execPauseBadMagnitude op m s
  | .reset => Sys2Proof.Machine.execReset s
  | .push b => Sys2Proof.Machine.execPush b s
  | .cycle => Sys2Proof.Machine.execCycle s
  | .clear => Sys2Proof.Machine.execClear s
  | .sample => Sys2Proof.Machine.execSample s
  | .available => Sys2Proof.Machine.execAvailable s
  | .pop => Sys2Proof.Machine.execPop s
  | .frameStep b => Sys2Proof.Machine.execFrameStep b s
  | .parse => Sys2Proof.Machine.execParse s
  | .validate => Sys2Proof.Machine.execValidate s
  | .dispatch => Sys2Proof.Machine.execDispatch s

end Sys2Proof.Machine
end

