-- ==== Sys2Proof/Machine/Sequencer.lean ====
section
/-! DEFINITION. Which agent moves next: the schedule, the atomic steps of a CYCLE in progress, and where the next
instruction is taken from (20_memory.md R58, 44_control_cycle.md R136). -/

namespace Sys2Proof.Machine

/-- The strobes of one instant: the operation taken first runs, the strobes still asserted stay at the head of the
schedule (60_exceptions.md R155). -/
def serveStrobes (S : BitVec 5) (wData : Byte) (order : List Strobe) (rest : List Input) (s : State) : StepResult :=
  match decodeStrobes order S wData with
  | some (i, S') => exec i (s.setInputs (if S' = 0 then rest else .strobes S' wData order :: rest))
  | none => .next (s.setInputs rest)

/-- `c_tick` for a CYCLE taken step by step; no effect while one is in progress (44_control_cycle.md R136). -/
def beginCycle (s : State) : State :=
  if s.phase = .idle then s.setPhase .parsing else s

/-- The end of a CYCLE: the candidate frame is discarded (44_control_cycle.md R135). -/
def finishCycle (s : State) : State := (s.setNewData false).setPhase .idle

/-- The tail of a CYCLE taken step by step: the completed frame in `x` is decoded by 30_encoding.md R79 and runs as
the command it is.  With `DISPATCH_ATOMIC = false` the motor state it gives is kept for three separate writes
(93_implementation_defined.md U19). -/
def tailTurn (s : State) : StepResult :=
  if s.newData = true then
    andThen (exec (decodePayload s.x0 s.x1 s.x2) s) (fun t =>
      if s.cfg.dispatchAtomic = true then .next (finishCycle t)
      else .next (s.setPhase (.writing t.dirA t.dirB t.duty [.dirA, .dirB, .duty])))
  else .next (s.setPhase .idle)

/-- Write one motor register. -/
def writeMotor (a b : Bool) (d : Byte) (r : MotorReg) (s : State) : State :=
  match r with
  | .dirA => s.setMotor a s.dirB s.duty
  | .dirB => s.setMotor s.dirA b s.duty
  | .duty => s.setMotor s.dirA s.dirB d

/-- One of the writes left, chosen by `k`; the CYCLE ends with the last of them (log entry 13). -/
def writeTurn (k : Nat) (a b : Bool) (d : Byte) (left : List MotorReg) (s : State) : State :=
  match left[k % left.length]? with
  | none => finishCycle s
  | some r =>
    let t := writeMotor a b d r s
    if left.length ≤ 1 then finishCycle t
    else t.setPhase (.writing a b d (left.eraseIdx (k % left.length)))

/-- The next atomic step of the CYCLE in progress (44_control_cycle.md R136): `k` passes that pop a byte, the pass that
finds the exit condition, the tail.  Without a CYCLE in progress the consumer takes no step. -/
def consumerStep (k : Nat) (s : State) : StepResult :=
  match s.phase with
  | .idle => .next s
  | .parsing => if parseDone s = true then .next (s.setPhase .tail) else parsePass s
  | .tail => tailTurn s
  | .writing a b d left => .next (writeTurn k a b d left s)

/-- What happens when the environment asserts nothing: a CYCLE in progress goes on, else a lag shortens, else every
register keeps its value (60_exceptions.md R167, 20_memory.md R64; log entries 5, 12). -/
def quietTurn (s : State) : StepResult :=
  if s.phase = .idle then
    if 0 < s.lagC then .next (syncLag .consumer s) else .next (syncLag .producer s)
  else consumerStep 0 s

/-- One step of the machine: the next entry of the schedule, or a quiet turn. -/
def takeTurn (s : State) : StepResult :=
  match s.inputs with
  | [] => quietTurn s
  | .strobes S wData order :: rest => serveStrobes S wData order rest s
  | .beginCycle :: rest => .next (beginCycle (s.setInputs rest))
  | .consumerTurn k :: rest => consumerStep k (s.setInputs rest)
  | .sync side :: rest => .next (syncLag side (s.setInputs rest))
  | .readAvailable :: rest => exec .available (s.setInputs rest)

/-- A completed frame put where the consumer runs it next: its payload in `x`, `new_data` set, and the tail of a CYCLE
next.
DESIGN CHOICE (log entry 29, unsafe): only what the tail reads is set.  `in_frame` and `idx` keep their values, whatever
the frame's last byte is, where a FRAME_STEP that completes the frame leaves `idx = 0` and `in_frame = 0`, or
`in_frame = 1` after a last byte 0xFF (41_framer_ops.md R100, R105); the ring and the lags keep theirs too. -/
def placeFrame (op m c : Byte) (s : State) : State :=
  ((((((s.setPayload 0 op).setPayload 1 m).setPayload 2 c).setNewData true).setPhase .tail).setInputs
    (.consumerTurn 0 :: s.inputs))

/-- The instruction with these bits put where the next step takes it: a strobe word at the head of the schedule, a
command frame in the payload registers.  Bytes that the decoder takes for neither are not placed. -/
def placeWord (nbits w : Nat) (s : State) : State :=
  match tableBytes nbits w with
  | [S, d] => if S.toNat < 32 then s.setInputs (.strobes (S.setWidth 5) d [] :: s.inputs) else s
  | [f0, op, m, c] => if f0 = Config.startMarker then placeFrame op m c s else s
  | _ => s

end Sys2Proof.Machine
end

