-- ==== Sys2Proof/Machine/Step.lean ====
section
/-! DEFINITION. One step of the machine, and where an instruction is placed so that the next step runs it. -/

namespace Sys2Proof.Machine

/-- One step.  Parameters the spec refuses are refused (93_implementation_defined.md U6, U7). -/
def step (s : State) : Host.Outcome State Fault Refusal :=
  if s.cfg.Supported then takeTurn s else .refused .unsupportedParameters

/-- `s` with the instruction whose table bits are `w` placed where `step` takes its next instruction. -/
def State.withFetchWord (s : State) (nbits w : Nat) : State := placeWord nbits w s

end Sys2Proof.Machine
end

