-- ==== Sys2Proof/Safety.lean ====
section
/-! DEFINITION. What counts as a good state of ORCP, and the words the statements use: the invariants of 10_state.md,
the queue the ring holds, runs of events. -/

namespace Sys2Proof.Machine

/-! ### Views of a state -/

/-- The motor registers `dir_a`, `dir_b`, `duty`. -/
def State.motor (s : State) : Bool × Bool × Byte := (s.dirA, s.dirB, s.duty)

/-- The direction pair `dir = {dir_a, dir_b}` (30_encoding.md R87). -/
def State.dir (s : State) : Bool × Bool := (s.dirA, s.dirB)

/-- The parser's registers: `in_frame`, `idx`, `x[0..2]`, `new_data`. -/
def State.parser (s : State) : Bool × Fin 3 × Byte × Byte × Byte × Bool :=
  (s.inFrame, s.idx, s.x0, s.x1, s.x2, s.newData)

/-- The `n` cells from index `a` on, wrapping at `C`. -/
def State.window (s : State) (a n : Nat) : List Byte :=
  (List.range n).map fun k => Memory.read s.buf ((a + k) % s.cfg.capacity)

/-- The occupied window, oldest byte first (10_state.md R26 (d)). -/
def State.contents (s : State) : List Byte := s.window s.rd.toNat s.count.toNat

/-- No operation in progress and no completed frame (00_scope.md R13). -/
def State.Quiescent (s : State) : Prop := s.phase = .idle ∧ s.newData = false

/-! ### Invariants -/

/-- The ring invariants (10_state.md R26 (a) to (c)). -/
structure State.RingInv (s : State) : Prop where
  count_le : s.count.toNat ≤ s.cfg.capacity
  wr_lt : s.wr.toNat < s.cfg.capacity
  rd_lt : s.rd.toNat < s.cfg.capacity
  wr_eq : s.wr.toNat = (s.rd.toNat + s.count.toNat) % s.cfg.capacity

/-- The storage is in canonical form and lists only cells that exist (20_memory.md R50). -/
structure State.StorageInv (s : State) : Prop where
  wf : Memory.wf s.buf = true
  cells : ∀ c ∈ s.buf, c.1 < s.cfg.capacity

/-- The parser invariants (10_state.md R31 (b) to (d); (a) holds by the type of `idx`). -/
structure State.ParserInv (s : State) : Prop where
  idle_idx : s.inFrame = false → s.idx = 0
  complete_idx : s.newData = true → s.idx = 0
  between_cycles : s.phase = .idle → s.newData = false

/-- The duty a CYCLE in progress is about to write. -/
def CyclePhase.target : CyclePhase → Option Byte
  | .idle => none
  | .parsing => none
  | .tail => none
  | .writing _ _ d _ => some d

/-- The duty and compare invariants (10_state.md R33, R35, R36). -/
structure State.MotorInv (s : State) : Prop where
  duty_le : s.duty.toNat ≤ Config.dutyMax
  target_le : ∀ d, s.phase.target = some d → d.toNat ≤ Config.dutyMax
  cmp_le : s.cmp ≤ s.cfg.maxCompare

/-- The bounds of the lags (20_memory.md R64). -/
structure State.LagInv (s : State) : Prop where
  lagC_le : s.lagC ≤ s.count.toNat
  lagP_le : s.lagP ≤ s.cfg.capacity - s.count.toNat
  immediate : s.cfg.cdcView = .immediate → s.lagC = 0 ∧ s.lagP = 0

/-- The invariant of every reachable state. -/
structure State.Inv (s : State) : Prop where
  supported : s.cfg.Supported
  ring : s.RingInv
  storage : s.StorageInv
  parser : s.ParserInv
  motor : s.MotorInv
  lags : s.LagInv

/-! ### Runs -/

/-- The machine right after reset with other parameters. -/
def State.resetWith (c : Config) : State := { State.reset with cfg := c }

/-- A list of operations, each run to completion before the next (30_encoding.md R84, 44_control_cycle.md R140). -/
def runAll : List Instr → State → StepResult
  | [], s => .next s
  | i :: rest, s => andThen (exec i s) (runAll rest)

/-- The PUSHes of the bytes a sender transmits, in order. -/
def receive (bytes : List Byte) : List Instr := bytes.map Instr.push

/-- The parser fed with bytes, one FRAME_STEP each. -/
def feed : List Byte → State → State
  | [], s => s
  | b :: rest, s => feed rest (parserStep b s)

/-- An operation of one side of the ring. -/
inductive RingOp where
  | push (b : Byte)
  | pop
deriving DecidableEq, Repr

/-- What a sequence of ring operations did: the bytes accepted by PUSH, the bytes returned by POP, both in step order,
and the state after it. -/
structure RingTrace where
  accepted : List Byte
  returned : List Byte
  final : State
deriving DecidableEq, Repr

/-- Run ring operations one after the other by `exec`; `none` when one of them stops. -/
def ringTrace : List RingOp → State → Option RingTrace
  | [], s => some ⟨[], [], s⟩
  | .push b :: rest, s =>
    match exec (.push b) s with
    | .next t => (ringTrace rest t).map fun r => { r with accepted := if t.wAck then b :: r.accepted else r.accepted }
    | .fault _ => none
    | .refused _ => none
  | .pop :: rest, s =>
    match exec .pop s with
    | .next t => (ringTrace rest t).map fun r =>
        { r with returned := (match t.result with | .popped (some b) => [b] | _ => []) ++ r.returned }
    | .fault _ => none
    | .refused _ => none

end Sys2Proof.Machine
end

