-- ==== Sys2Proof/Certificates/Slice0/Obligations.lean ====
section
/-! DEFINITION. The statements for the provers.  Each docstring names the rule of spec/ it formalises or rests on. -/

open Sys2Proof Sys2Proof.Machine

/-! ### Encoding and decoding -/

/-- Decoding the bytes of a well-formed instruction gives it back, whatever follows (30_encoding.md R70, R78, R83). -/
def Obligations.DecodeInvertsEncode : Prop :=
  ∀ (i : Instr) (bytes rest : List Byte), wellFormed i = true → encode i = some bytes →
    decode (bytes ++ rest) = .ok (i, rest)

/-- Every one of the 2^24 payloads decodes to a well-formed instruction whose bytes are that frame: no bit of a frame
is dropped (30_encoding.md R80, R81). -/
def Obligations.EncodeInvertsDecodePayload : Prop :=
  ∀ op m c : Byte, encode (decodePayload op m c) = some [Config.startMarker, op, m, c] ∧
    wellFormed (decodePayload op m c) = true

/-- The outcome of a completed frame, by the tests of R79 in their order, and the row each test selects: pins by R78, the
Pause state by R149 (30_encoding.md, 60_exceptions.md).  That `00 00 00` selects the row `pause` and not `pauseBadOpcode`
is the model's reading of R85 (log entry 17); both rows pause. -/
def Obligations.CompletedFrameOutcome : Prop :=
  ∀ (op m c : Byte) (s : State),
    (op ^^^ m ≠ c →
      decodePayload op m c = .pauseChecksumFail op m c ∧
      exec (decodePayload op m c) s = .next { s with dirA := false, dirB := true, duty := 0 }) ∧
    (op ^^^ m = c → op ∉ [1, 2, 3, 4] →
      decodePayload op m c = (if op = 0 ∧ m = 0 then .pause else .pauseBadOpcode op m) ∧
      exec (decodePayload op m c) s = .next { s with dirA := false, dirB := true, duty := 0 }) ∧
    (op ^^^ m = c → op ∈ [1, 2, 3, 4] → 100 < m.toNat →
      decodePayload op m c = .pauseBadMagnitude op m ∧
      exec (decodePayload op m c) s = .next { s with dirA := false, dirB := true, duty := 0 }) ∧
    (op ^^^ m = c → m.toNat ≤ 100 →
      (op = 1 → decodePayload op m c = .forward m ∧
        exec (decodePayload op m c) s = .next { s with dirA := false, dirB := false, duty := m }) ∧
      (op = 2 → decodePayload op m c = .right m ∧
        exec (decodePayload op m c) s = .next { s with dirA := false, dirB := true, duty := m }) ∧
      (op = 3 → decodePayload op m c = .backward m ∧
        exec (decodePayload op m c) s = .next { s with dirA := true, dirB := true, duty := m }) ∧
      (op = 4 → decodePayload op m c = .left m ∧
        exec (decodePayload op m c) s = .next { s with dirA := true, dirB := false, duty := m }))

/-- Frame words of the spec decode to what they stand for: the Move and PAUSE words from section D8 of 95_test_vectors.md,
`FF 01 02 04` from S3, `FF 09 14 1D` from S4, `FF 01 FE FF` from P4.  The strobe words `0x10`, `0x04`, `0x02`, `0x01` are the
matches of spec/opcode_table.json; the layout of `0x4108`, `S` in the low byte and `w_data` above it, is the model's
choice (log entry 18): 30_encoding.md R83 gives the vector as notation only. -/
def Obligations.SpecWordsDecode : Prop :=
  decodeTableWord 32 0xFF010203 = some (.forward 2) ∧
  decodeTableWord 32 0xFF023230 = some (.right 50) ∧
  decodeTableWord 32 0xFF034B48 = some (.backward 75) ∧
  decodeTableWord 32 0xFF040A0E = some (.left 10) ∧
  decodeTableWord 32 0xFF000000 = some .pause ∧
  decodeTableWord 32 0xFF010204 = some (.pauseChecksumFail 1 2 4) ∧
  decodeTableWord 32 0xFF09141D = some (.pauseBadOpcode 0x09 0x14) ∧
  decodeTableWord 32 0xFF01FEFF = some (.pauseBadMagnitude 0x01 0xFE) ∧
  decodeTableWord 8 0x10 = some .reset ∧
  decodeTableWord 16 0x4108 = some (.push 0x41) ∧
  decodeTableWord 8 0x04 = some .cycle ∧
  decodeTableWord 8 0x02 = some .clear ∧
  decodeTableWord 8 0x01 = some .sample

/-- A Move frame holds no marker: opcode, magnitude and checksum have bit 7 clear and the checksum is at most 0x67
(30_encoding.md, section 7, R86). -/
def Obligations.MoveFrameHoldsNoMarker : Prop :=
  ∀ op m : Byte, isMoveOpcode op = true → magnitudeInRange m = true →
    op.toNat ≤ 4 ∧ m.toNat ≤ 100 ∧ (op ^^^ m).toNat ≤ 0x67 ∧
    op ≠ Config.startMarker ∧ m ≠ Config.startMarker ∧ op ^^^ m ≠ Config.startMarker

/-- Any asserted strobe can be taken first, and taking it leaves exactly the others asserted (60_exceptions.md R155). -/
def Obligations.AnyStrobeMayComeFirst : Prop :=
  ∀ (S : BitVec 5) (d : Byte) (l : Strobe), Strobe.asserted S .rst = false → Strobe.asserted S l = true →
    ∃ S', decodeStrobes [l] S d = some (l.operation d, S') ∧
      ∀ l', Strobe.asserted S' l' = (Strobe.asserted S l' && decide (l' ≠ l))

/-! ### Steps -/

/-- A step on asserted strobes runs the operation they decode to (20_memory.md R58, 30_encoding.md R83, 60_exceptions.md
R155), and leaves the strobes still asserted, if any, at the head of the schedule.  The schedule, and that it serves one
strobe a step, are the model's choice (log entries 5, 9). -/
def Obligations.StepRunsTheStartedOperation : Prop :=
  ∀ (s : State) (S S' : BitVec 5) (d : Byte) (order : List Strobe) (rest : List Input) (i : Instr),
    s.cfg.Supported → s.inputs = .strobes S d order :: rest → decodeStrobes order S d = some (i, S') →
    step s = exec i { s with inputs := if S' = 0 then rest else .strobes S' d order :: rest }

/-- A step on the tail of a CYCLE runs the command the completed frame decodes to, and discards the frame
(44_control_cycle.md R135, 30_encoding.md R79). -/
def Obligations.StepRunsTheCompletedFrame : Prop :=
  ∀ (s : State) (k : Nat) (rest : List Input),
    s.cfg.Supported → s.cfg.dispatchAtomic = true → s.inputs = .consumerTurn k :: rest → s.phase = .tail →
    s.newData = true →
    ∃ t, exec (decodePayload s.x0 s.x1 s.x2) { s with inputs := rest } = .next t ∧
      step s = .next { t with newData := false, phase := .idle }

/-- A step on a pass of PARSE: it finds the exit condition, or it is one POP followed by one FRAME_STEP of the byte POP
returned (20_memory.md R58, 41_framer_ops.md R102). -/
def Obligations.StepRunsPopThenFrameStep : Prop :=
  ∀ (s : State) (k : Nat) (rest : List Input),
    s.cfg.Supported → s.inputs = .consumerTurn k :: rest → s.phase = .parsing →
    (consumerCount s = 0 ∨ s.newData = true → step s = .next { s with inputs := rest, phase := .tail }) ∧
    (consumerCount s ≠ 0 → s.newData = false → s.rd.toNat < s.cfg.capacity →
      ∃ (b : Byte) (t : State), exec .pop { s with inputs := rest } = .next t ∧ t.result = .popped (some b) ∧
        step s = exec (.frameStep b) { t with result := s.result })

/-- The instruction placed by `withFetchWord` is the one the very next step runs.  A strobe word runs as the operation its
strobes decode to, for every parameter; a frame runs as the tail of a CYCLE, and with `DISPATCH_ATOMIC = false` the step
keeps the motor state it decides for three separate writes.  Where a word is placed is the model's choice (log entries
5, 13, 18), and so is that a placed frame leaves `in_frame` and `idx` as they were (log entry 29). -/
def Obligations.PlacedWordRunsNext : Prop :=
  ∀ (s : State) (nbits w : Nat) (i : Instr),
    s.cfg.Supported → decodeTableWord nbits w = some i →
    (nbits ≤ 16 → ∃ S' : BitVec 5,
      decodeStrobes [] ((byteOf w 0).setWidth 5) (byteOf w 1) = some (i, S') ∧
      step (s.withFetchWord nbits w) = exec i { s with
        inputs :=
          if S' = 0 then s.inputs else .strobes S' (byteOf w 1) [] :: s.inputs }) ∧
    (16 < nbits →
      let p : State := { s with
        x0 := byteOf w 2, x1 := byteOf w 1, x2 := byteOf w 0, newData := true, phase := .tail }
      ∃ t, exec i p = .next t ∧
        step (s.withFetchWord nbits w) = .next
          (if s.cfg.dispatchAtomic = true then { t with newData := false, phase := .idle }
           else { p with phase := .writing t.dirA t.dirB t.duty [.dirA, .dirB, .duty] }))

/-- What a step does on every other kind of turn: AVAILABLE is read, `c_tick` begins a CYCLE, an instant without strobes
passes, a SYNC shortens a lag under Lagged only, a consumer without a CYCLE does nothing, a tail without a completed frame
only ends the CYCLE (R138), and with nothing from the environment a CYCLE in progress goes on, else a lag shortens
(60_exceptions.md R167, 40_ringbuffer_ops.md R92, 44_control_cycle.md R136, R138, 20_memory.md R58, R64; the schedule is
the model's, log entries 5, 7, 12).  The turns not named here are in `StepRunsTheStartedOperation`,
`StepRunsTheCompletedFrame`, `StepRunsPopThenFrameStep`, `SecondTickIsIgnored` and `SeparateDispatchTurns`. -/
def Obligations.StepServesEveryOtherTurn : Prop :=
  ∀ s : State, s.cfg.Supported →
    (∀ rest, s.inputs = .readAvailable :: rest → step s = exec .available { s with inputs := rest }) ∧
    (∀ rest, s.inputs = .beginCycle :: rest → s.phase = .idle →
      step s = .next { s with inputs := rest, phase := .parsing }) ∧
    (∀ d order rest, s.inputs = .strobes 0 d order :: rest → step s = .next { s with inputs := rest }) ∧
    (∀ k rest, s.inputs = .consumerTurn k :: rest → s.phase = .idle → step s = .next { s with inputs := rest }) ∧
    (∀ k rest, s.inputs = .consumerTurn k :: rest → s.phase = .tail → s.newData = false →
      step s = .next { s with inputs := rest, phase := .idle }) ∧
    (∀ side rest, s.inputs = .sync side :: rest → s.cfg.cdcView = .immediate →
      step s = .next { s with inputs := rest }) ∧
    (∀ rest, s.inputs = .sync .consumer :: rest → s.cfg.cdcView = .lagged →
      step s = .next { s with inputs := rest, lagC := s.lagC - 1 }) ∧
    (∀ rest, s.inputs = .sync .producer :: rest → s.cfg.cdcView = .lagged →
      step s = .next { s with inputs := rest, lagP := s.lagP - 1 }) ∧
    (s.inputs = [] → s.phase ≠ .idle → step s = step { s with inputs := [.consumerTurn 0] }) ∧
    (s.inputs = [] → s.phase = .idle → 0 < s.lagC → step s = step { s with inputs := [.sync .consumer] }) ∧
    (s.inputs = [] → s.phase = .idle → s.lagC = 0 → step s = step { s with inputs := [.sync .producer] })

/-- The turns of a tail with `DISPATCH_ATOMIC = false` (93_implementation_defined.md U19): the first decides the motor state
and writes no register, each further one writes one of the registers left, chosen by `k`, and the last write discards the
frame and ends the CYCLE.  The order and the step that decides are the model's choice (log entry 13). -/
def Obligations.SeparateDispatchTurns : Prop :=
  ∀ (s : State) (k : Nat) (rest : List Input), s.cfg.Supported → s.inputs = .consumerTurn k :: rest →
    (s.cfg.dispatchAtomic = false → s.phase = .tail → s.newData = true →
      ∃ t, exec (decodePayload s.x0 s.x1 s.x2) s = .next t ∧
        step s = .next { s with
          inputs := rest, phase := .writing t.dirA t.dirB t.duty [.dirA, .dirB, .duty] }) ∧
    (∀ (a b : Bool) (d : Byte) (left : List MotorReg) (r : MotorReg), s.phase = .writing a b d left →
      left[k % left.length]? = some r →
      step s = .next { s with
        inputs := rest
        dirA := if r = .dirA then a else s.dirA
        dirB := if r = .dirB then b else s.dirB
        duty := if r = .duty then d else s.duty
        newData := if left.length ≤ 1 then false else s.newData
        phase := if left.length ≤ 1 then .idle else .writing a b d (left.eraseIdx (k % left.length)) })

/-- `rst` wins over every strobe asserted with it: the next state is that of RESET, and none of the others is served
(60_exceptions.md R155, 30_encoding.md R83). -/
def Obligations.ResetWinsOverOtherStrobes : Prop :=
  ∀ (s : State) (S : BitVec 5) (d : Byte) (order : List Strobe) (rest : List Input),
    s.cfg.Supported → s.inputs = .strobes S d order :: rest → Strobe.asserted S .rst = true →
    step s = exec .reset { s with inputs := rest }

/-! ### The ring buffer -/

/-- R90: PUSH refuses the byte on a full buffer and changes only `w_ack`; otherwise it writes the byte at `wr`, advances
`wr` modulo C, adds 1 to `count` and sets `w_ack`; nothing else changes. -/
def Obligations.PushAppendsOrRefuses : Prop :=
  ∀ (b : Byte) (s : State), s.Inv → s.cfg.cdcView = .immediate →
    (s.count.toNat = s.cfg.capacity → exec (.push b) s = .next { s with wAck := false }) ∧
    (s.count.toNat ≠ s.cfg.capacity → ∃ t, exec (.push b) s = .next t ∧
      (∀ a, Memory.read t.buf a = if a = s.wr.toNat then b else Memory.read s.buf a) ∧
      t.wr.toNat = (s.wr.toNat + 1) % s.cfg.capacity ∧ t.count.toNat = s.count.toNat + 1 ∧
      t = { s with buf := t.buf, wr := t.wr, count := t.count, wAck := true })

/-- R91: POP on the empty buffer returns None and changes no state; otherwise it returns the byte at `rd`, advances `rd`
modulo C and subtracts 1 from `count`; nothing else changes.  (`result` holds what POP returns, log entry 8.) -/
def Obligations.PopReturnsTheOldestByte : Prop :=
  ∀ s : State, s.Inv → s.cfg.cdcView = .immediate →
    (s.count.toNat = 0 → exec .pop s = .next { s with result := .popped none }) ∧
    (s.count.toNat ≠ 0 → ∃ t, exec .pop s = .next t ∧
      t.result = .popped (some (Memory.read s.buf s.rd.toNat)) ∧
      t.rd.toNat = (s.rd.toNat + 1) % s.cfg.capacity ∧ t.count.toNat + 1 = s.count.toNat ∧
      t = { s with rd := t.rd, count := t.count, result := t.result })

/-- R92: AVAILABLE returns `count`, the port `avail` shows it, and no state changes; under Lagged both are
`count − lag_c`.  (`result` holds what AVAILABLE returns, log entry 8.) -/
def Obligations.AvailableReportsUnreadBytes : Prop :=
  ∀ s : State,
    (s.cfg.cdcView = .immediate →
      exec .available s = .next { s with result := .unread s.count } ∧ s.ports.avail = s.count) ∧
    (s.cfg.cdcView = .lagged → ∃ n : Byte, n.toNat = s.count.toNat - s.lagC ∧
      exec .available s = .next { s with result := .unread n } ∧ s.ports.avail = n)

/-- Every output port shows its register in every state: `w_ack`, `duty`, `dir_a`, `dir_b`, `cmp`, and `avail` the count of
unread bytes, `count − lag_c` under Lagged (10_state.md R37, 40_ringbuffer_ops.md R92, 43_pwm_output.md R128, R129). -/
def Obligations.PortsShowTheirRegisters : Prop :=
  ∀ s : State,
    s.ports.wAck = s.wAck ∧ s.ports.duty = s.duty ∧ s.ports.dirA = s.dirA ∧ s.ports.dirB = s.dirB ∧
    s.ports.cmp = s.cmp ∧
    (s.cfg.cdcView = .immediate → s.ports.avail = s.count) ∧
    (s.cfg.cdcView = .lagged → s.ports.avail.toNat = s.count.toNat - s.lagC)

/-- R93: CLEAR sets `wr`, `rd`, `count` to 0 (and both lags, R64) and changes nothing else. -/
def Obligations.ClearEmptiesTheRing : Prop :=
  ∀ s : State, exec .clear s = .next { s with wr := 0, rd := 0, count := 0, lagC := 0, lagP := 0 }

/-- Under `CDC_VIEW = Lagged` the producer tests `count + lag_p`, the consumer `count − lag_c`; an accepted PUSH adds 1
to `lag_c`, a successful POP adds 1 to `lag_p`, a SYNC step takes 1 from a lag (20_memory.md, section 5). -/
def Obligations.LaggedCrossing : Prop :=
  ∀ (b : Byte) (s : State), s.Inv → s.cfg.cdcView = .lagged →
    (s.count.toNat + s.lagP = s.cfg.capacity → exec (.push b) s = .next { s with wAck := false }) ∧
    (s.count.toNat + s.lagP ≠ s.cfg.capacity → ∃ t, exec (.push b) s = .next t ∧
      (∀ a, Memory.read t.buf a = if a = s.wr.toNat then b else Memory.read s.buf a) ∧
      t.wr.toNat = (s.wr.toNat + 1) % s.cfg.capacity ∧ t.count.toNat = s.count.toNat + 1 ∧
      t = { s with buf := t.buf, wr := t.wr, count := t.count, wAck := true, lagC := s.lagC + 1 }) ∧
    (s.count.toNat - s.lagC = 0 → exec .pop s = .next { s with result := .popped none }) ∧
    (s.count.toNat - s.lagC ≠ 0 → ∃ t, exec .pop s = .next t ∧
      t.result = .popped (some (Memory.read s.buf s.rd.toNat)) ∧
      t.rd.toNat = (s.rd.toNat + 1) % s.cfg.capacity ∧ t.count.toNat + 1 = s.count.toNat ∧
      t = { s with rd := t.rd, count := t.count, result := t.result, lagP := s.lagP + 1 }) ∧
    (∀ rest, s.inputs = .sync .consumer :: rest → step s = .next { s with inputs := rest, lagC := s.lagC - 1 }) ∧
    (∀ rest, s.inputs = .sync .producer :: rest → step s = .next { s with inputs := rest, lagP := s.lagP - 1 })

/-- The occupied window is a queue: an accepted PUSH appends its byte, a POP that returns a byte removes the oldest, and
a PUSH or POP without success leaves it (10_state.md R26 (d)). -/
def Obligations.WindowIsAQueue : Prop :=
  ∀ (s t : State), s.Inv →
    (∀ b, exec (.push b) s = .next t →
      (t.wAck = true → t.contents = s.contents ++ [b]) ∧ (t.wAck = false → t.contents = s.contents)) ∧
    (exec .pop s = .next t →
      (∀ b, t.result = .popped (some b) → s.contents = b :: t.contents) ∧
      (t.result = .popped none → t.contents = s.contents))

/-- FIFO order: over any sequence of PUSHes and POPs none stops, and the bytes unread at the start followed by the
accepted ones are the returned ones followed by those still unread (20_memory.md R59). -/
def Obligations.BytesLeaveInArrivalOrder : Prop :=
  ∀ (ops : List RingOp) (s : State), s.Inv →
    ∃ r, ringTrace ops s = some r ∧ s.contents ++ r.accepted = r.returned ++ r.final.contents

/-- The queue law: from an empty ring, n ≤ C PUSHes are all accepted, n POPs return the same bytes in the same order,
and the next POP returns None (40_ringbuffer_ops.md R95). -/
def Obligations.PushedBytesPopInOrder : Prop :=
  ∀ (bs : List Byte) (s : State), s.Inv → s.cfg.cdcView = .immediate → s.count = 0 → bs.length ≤ s.cfg.capacity →
    ∃ r, ringTrace (bs.map RingOp.push ++ List.replicate bs.length .pop ++ [.pop]) s = some r ∧
      r.accepted = bs ∧ r.returned = bs ∧ r.final.count = 0 ∧ r.final.result = .popped none

/-- The integer laws: after k accepted PUSHes and j successful POPs since the ring was cleared, `wr = k mod C`,
`rd = j mod C` and `count = k − j ≤ C` (40_ringbuffer_ops.md R94). -/
def Obligations.IndicesCountTheOperations : Prop :=
  ∀ (ops : List RingOp) (s : State) (r : RingTrace), s.Inv → s.wr = 0 → s.rd = 0 → s.count = 0 →
    ringTrace ops s = some r →
    r.final.wr.toNat = r.accepted.length % s.cfg.capacity ∧
    r.final.rd.toNat = r.returned.length % s.cfg.capacity ∧
    r.final.count.toNat + r.returned.length = r.accepted.length ∧ r.final.count.toNat ≤ s.cfg.capacity

/-! ### The framer -/

/-- R100: FRAME_STEP, both blocks in their order, for both values of `MARKER_RESTARTS_FRAME`; nothing else changes. -/
def Obligations.FrameStepRunsItsTwoBlocks : Prop :=
  ∀ (b : Byte) (s : State),
    let collected : State :=
      if s.inFrame = true then
        if s.idx = 2 then { s with x2 := b, newData := true, inFrame := false, idx := 0 }
        else if s.idx = 1 then { s with x1 := b, idx := 2 }
        else { s with x0 := b, idx := 1 }
      else s
    exec (.frameStep b) s = .next
      (if b = 0xFF then
        { collected with inFrame := true, idx := if s.cfg.markerRestartsFrame = true then 0 else collected.idx }
      else collected)

/-- R103: VALIDATE returns whether `x[0] ^ x[1] = x[2]` and changes no state.  (`result` holds what it returns, log
entry 8.) -/
def Obligations.ValidateComparesTheChecksum : Prop :=
  ∀ s : State, exec .validate s = .next { s with result := .valid (decide (s.x0 ^^^ s.x1 = s.x2)) }

/-- PARSE takes bytes off the front of the queue and feeds them to the parser one by one until a frame is complete or the
consumer sees no byte any more, and not one further; nothing but the parser, `rd`, `count` and `lag_p` changes
(41_framer_ops.md R102, 20_memory.md R64). -/
def Obligations.ParseFeedsAPrefix : Prop :=
  ∀ s : State, s.Inv → ∃ (t : State) (n : Nat),
    exec .parse s = .next t ∧ n ≤ consumerCount s ∧ consumerCount t = consumerCount s - n ∧
    t.rd.toNat = (s.rd.toNat + n) % s.cfg.capacity ∧ t.count.toNat + n = s.count.toNat ∧
    t.lagP = (if s.cfg.cdcView = .lagged then s.lagP + n else s.lagP) ∧
    t.contents = s.contents.drop n ∧
    t.parser = (feed (s.contents.take n) s).parser ∧
    (consumerCount t = 0 ∨ t.newData = true) ∧
    (∀ m, m < n → (feed (s.contents.take m) s).newData = false) ∧
    t = { s with
      rd := t.rd, count := t.count, lagP := t.lagP
      inFrame := t.inFrame, idx := t.idx, x0 := t.x0, x1 := t.x1, x2 := t.x2, newData := t.newData }

/-- Bytes that are not the marker leave an idle parser as it is, however many (60_exceptions.md R146, 30_encoding.md
R76). -/
def Obligations.IdleParserDropsGarbage : Prop :=
  ∀ (bs : List Byte) (s : State), s.inFrame = false → (∀ b ∈ bs, b ≠ Config.startMarker) → feed bs s = s

/-- A Move frame fed to an idle parser is collected whole, whether or not a marker restarts a frame
(93_implementation_defined.md U2, 41_framer_ops.md R100). -/
def Obligations.MoveFrameIsCollectedEitherWay : Prop :=
  ∀ (op m : Byte) (s : State), isMoveOpcode op = true → magnitudeInRange m = true →
    s.inFrame = false → s.idx = 0 →
    feed (frameBytes op m) s =
      { s with inFrame := false, idx := 0, x0 := op, x1 := m, x2 := op ^^^ m, newData := true }

/-- A frame that lost its last byte swallows the next frame's marker as its checksum and leaves the parser armed; once CYCLE
has discarded it, the three bytes after that marker are collected as the next frame's payload, completed by the third and
not before (41_framer_ops.md R100, R105 (b), 70_reset_and_hazards.md R183). -/
def Obligations.ParserRecoversAtTheNextFrame : Prop :=
  ∀ (op m c : Byte) (s : State),
    s.inFrame = true → s.idx = 2 → s.newData = false → s.cfg.markerRestartsFrame = false →
    let swallowed : State := feed [Config.startMarker] s
    let discarded : State := { swallowed with newData := false }
    swallowed = { s with x2 := Config.startMarker, newData := true, inFrame := true, idx := 0 } ∧
    (feed [op] discarded).newData = false ∧ (feed [op, m] discarded).newData = false ∧
    feed [op, m, c] discarded =
      { s with
        x0 := op, x1 := m, x2 := c, newData := true
        inFrame := decide (c = Config.startMarker), idx := 0 }

/-! ### Dispatch and the commands -/

/-- R110: DISPATCH writes the pins and the duty of the row the opcode selects, or pauses; only the three motor registers
change. -/
def Obligations.DispatchDrivesTheMotor : Prop :=
  ∀ s : State, exec .dispatch s = .next (
    if s.x0 ∉ [1, 2, 3, 4] then { s with dirA := false, dirB := true, duty := 0 }
    else if 100 < s.x1.toNat then { s with dirA := false, dirB := true, duty := 0 }
    else if s.x0 = 1 then { s with dirA := false, dirB := false, duty := s.x1 }
    else if s.x0 = 2 then { s with dirA := false, dirB := true, duty := s.x1 }
    else if s.x0 = 3 then { s with dirA := true, dirB := true, duty := s.x1 }
    else { s with dirA := true, dirB := false, duty := s.x1 })

/-- R111 to R114: the four Move commands for a magnitude 0..100, and the Pause of a magnitude above 100; only the three
motor registers change. -/
def Obligations.MoveCommandsDriveTheMotor : Prop :=
  ∀ (m : Byte) (s : State),
    (m.toNat ≤ 100 →
      exec (.forward m) s = .next { s with dirA := false, dirB := false, duty := m } ∧
      exec (.right m) s = .next { s with dirA := false, dirB := true, duty := m } ∧
      exec (.backward m) s = .next { s with dirA := true, dirB := true, duty := m } ∧
      exec (.left m) s = .next { s with dirA := true, dirB := false, duty := m }) ∧
    (100 < m.toNat → ∀ i ∈ [Instr.forward m, .right m, .backward m, .left m],
      exec i s = .next { s with dirA := false, dirB := true, duty := 0 })

/-- R149: every Pause row writes pin A low, pin B high, duty 0, whatever its operands, and nothing else changes. -/
def Obligations.PauseRowsWriteTheSafeState : Prop :=
  ∀ (op m c : Byte) (s : State),
    ∀ i ∈ [Instr.pause, .pauseChecksumFail op m c, .pauseBadOpcode op m, .pauseBadMagnitude op m],
      exec i s = .next { s with dirA := false, dirB := true, duty := 0 }

/-- On a frame with a valid checksum DISPATCH does what the decoded command does (30_encoding.md R79 against
42_dispatch_commands.md R110). -/
def Obligations.DispatchAgreesWithDecoding : Prop :=
  ∀ s : State, s.x0 ^^^ s.x1 = s.x2 → exec .dispatch s = exec (decodePayload s.x0 s.x1 s.x2) s

/-- R116: what DISPATCH writes is a function of `x[0]` and `x[1]` alone, so the same frame twice gives the same motor
state both times. -/
def Obligations.DispatchHasNoMemory : Prop :=
  ∀ s s' t t' : State, s.x0 = s'.x0 → s.x1 = s'.x1 → exec .dispatch s = .next t → exec .dispatch s' = .next t' →
    t.motor = t'.motor ∧ exec .dispatch t = .next t

/-! ### PWM -/

/-- R125, R126: SAMPLE sets `cmp` to `floor((d * MAX_COMPARE + 50) / 100)` for a duty `d` of 0..100, and changes nothing
else. -/
def Obligations.SampleScalesTheDuty : Prop :=
  ∀ s : State, s.duty.toNat ≤ 100 →
    exec .sample s = .next { s with cmp := (s.duty.toNat * s.cfg.maxCompare + 50) / 100 }

/-- For a duty above 100, where the spec gives `scale` no value, SAMPLE still completes and changes `cmp` alone, to some
value of the register's width.  The free value is the model's (log entry 11). -/
def Obligations.SampleOutOfRangeChangesCmpOnly : Prop :=
  ∀ s : State, 100 < s.duty.toNat → ∃ n, n < 2 ^ s.cfg.compareWidth ∧ exec .sample s = .next { s with cmp := n }

/-- The properties of `scale`: end points, monotone, within range, within one half of the exact quotient, exact for a
multiple of 100, injective for `MAX_COMPARE ≥ 100`, not injective below (43_pwm_output.md R127). -/
def Obligations.ScaleRoundsToNearest : Prop :=
  ∀ M : Nat,
    scale M 0 = 0 ∧ scale M 100 = M ∧
    (∀ d e, d ≤ e → scale M d ≤ scale M e) ∧
    (∀ d, d ≤ 100 → scale M d ≤ M) ∧
    (∀ d, 100 * scale M d ≤ d * M + 50 ∧ d * M ≤ 100 * scale M d + 50) ∧
    (100 ∣ M → ∀ d, scale M d = d * (M / 100)) ∧
    (100 ≤ M → ∀ d e, scale M d = scale M e → d = e) ∧
    (M < 100 → ∃ d e, d < e ∧ e ≤ 100 ∧ scale M d = scale M e)

/-! ### The control cycle -/

/-- R135: CYCLE is PARSE, then, for a completed frame, DISPATCH when the checksum holds and Pause when it does not, and
the frame is discarded; without a completed frame nothing follows PARSE. -/
def Obligations.CycleParsesThenValidatesThenDispatches : Prop :=
  ∀ s : State, s.Inv → s.phase = .idle → ∃ t, exec .parse s = .next t ∧
    (t.newData = false → exec .cycle s = .next t) ∧
    (t.newData = true → t.x0 ^^^ t.x1 = t.x2 →
      ∃ u, exec .dispatch t = .next u ∧ exec .cycle s = .next { u with newData := false }) ∧
    (t.newData = true → t.x0 ^^^ t.x1 ≠ t.x2 →
      exec .cycle s = .next { t with dirA := false, dirB := true, duty := 0, newData := false })

/-- CYCLE on a buffer in which the consumer sees no byte changes no state (44_control_cycle.md R139). -/
def Obligations.CycleOnEmptyBufferChangesNothing : Prop :=
  ∀ s : State, consumerCount s = 0 → s.newData = false → exec .cycle s = .next s

/-- While a CYCLE is in progress another `c_tick` has no effect, however it is taken (44_control_cycle.md R136). -/
def Obligations.SecondTickIsIgnored : Prop :=
  ∀ (s : State) (rest : List Input), s.phase ≠ .idle →
    exec .cycle s = .next s ∧
    (s.cfg.Supported → s.inputs = .beginCycle :: rest → step s = .next { s with inputs := rest })

/-- A CYCLE taken one atomic step at a time, with no other agent's step inside, ends where CYCLE run to completion does:
after the step that accepts `c_tick`, k passes that pop a byte, the pass that finds the exit condition, and the tail, k
the bytes taken (44_control_cycle.md R136).  The step that accepts `c_tick` is the model's (log entry 7), as is that both
forms stand in the schedule (log entry 6). -/
def Obligations.StepwiseCycleEqualsCycle : Prop :=
  ∀ s : State, s.Inv → s.cfg.dispatchAtomic = true → s.phase = .idle → s.inputs = [] →
    ∃ t, exec .cycle s = .next t ∧
      core.run (1 + (consumerCount s - consumerCount t) + 2) { s with inputs := [.beginCycle] } = .next t

/-- With `DISPATCH_ATOMIC = false` the three motor writes of a tail, taken in any order, end where the atomic dispatch
does (93_implementation_defined.md U19; the tail's first step decides, log entry 13). -/
def Obligations.SeparateWritesEndAlike : Prop :=
  ∀ (s : State) (k0 k1 k2 k3 : Nat), s.cfg.Supported → s.cfg.dispatchAtomic = false → s.phase = .tail →
    s.newData = true → s.inputs = [] →
    ∃ t, exec (decodePayload s.x0 s.x1 s.x2) s = .next t ∧
      core.run 4 { s with inputs := [.consumerTurn k0, .consumerTurn k1, .consumerTurn k2, .consumerTurn k3] } =
        .next { t with newData := false, phase := .idle }

/-- From an idle parser and an empty ring, the four bytes of any frame pushed in one or two groups with a CYCLE after each
give the motor state of the command the frame decodes to; a partial frame persists from one CYCLE to the next
(41_framer_ops.md R106, 30_encoding.md R79, 44_control_cycle.md R135).  For `CDC_VIEW = Immediate` and
`MARKER_RESTARTS_FRAME = false`, the values R7 decides. -/
def Obligations.FrameOnTheWireRunsItsCommand : Prop :=
  ∀ (op m c : Byte) (n : Nat) (s : State), s.Inv → s.cfg.cdcView = .immediate → s.cfg.markerRestartsFrame = false →
    s.phase = .idle → s.inFrame = false → s.count = 0 → 4 ≤ s.cfg.capacity → n ≤ 4 →
    let bytes := [Config.startMarker, op, m, c]
    ∃ t u, runAll (receive (bytes.take n) ++ [.cycle] ++ receive (bytes.drop n) ++ [.cycle]) s = .next t ∧
      exec (decodePayload op m c) s = .next u ∧
      t.motor = u.motor ∧ t.cmp = u.cmp ∧ t.count = 0 ∧ t.newData = false ∧
      t.inFrame = decide (c = Config.startMarker) ∧ t.idx = 0

/-! ### Reset -/

/-- R170: RESET, from any state, abandoning a CYCLE in progress; `buf` and `x` are not written (and both lags become 0,
R64). -/
def Obligations.ResetWritesItsRegisters : Prop :=
  ∀ s : State, exec .reset s = .next { s with
    wr := 0, rd := 0, count := 0, inFrame := false, idx := 0, newData := false
    dirA := false, dirB := true, duty := 0, cmp := 0, wAck := false
    lagC := 0, lagP := 0, phase := .idle }

/-- The values R39 gives after reset, for any parameters. -/
def Obligations.ResetStateHoldsTheResetValues : Prop :=
  ∀ c : Config, let s := State.resetWith c
    s.wr = 0 ∧ s.rd = 0 ∧ s.count = 0 ∧ s.inFrame = false ∧ s.idx = 0 ∧ s.newData = false ∧
    s.duty = 0 ∧ s.dirA = false ∧ s.dirB = true ∧ s.cmp = 0 ∧ s.wAck = false

/-! ### Invariants over every step -/

/-- The reset state meets the invariants, for all parameters the spec accepts (10_state.md R26, R31, R33, R36, R39). -/
def Obligations.ResetMeetsTheInvariants : Prop :=
  ∀ c : Config, c.Supported → (State.resetWith c).Inv

/-- Every step keeps the invariants: ring (R26), parser (R31), duty and compare range (R33, R35, R36), lags (R64), the
storage's canonical form (10_state.md, 20_memory.md). -/
def Obligations.StepKeepsTheInvariants : Prop :=
  ∀ s t : State, s.Inv → step s = .next t → t.Inv

/-- There is always a defined next state: where the invariants hold, no step faults and none is refused, whatever the
environment does (60_exceptions.md R145). -/
def Obligations.EveryStepHasANextState : Prop :=
  ∀ s : State, s.Inv → ∃ t, step s = .next t

/-- The parameters do not change, and a quiet machine keeps all its state (70_reset_and_hazards.md R173 (1),
60_exceptions.md R167). -/
def Obligations.ParametersNeverChange : Prop :=
  (∀ s t : State, step s = .next t → t.cfg = s.cfg) ∧
  (∀ s : State, s.cfg.Supported → s.inputs = [] → s.phase = .idle → s.lagC = 0 → s.lagP = 0 → step s = .next s)

/-- R33, R36: no instruction puts `duty` outside 0..100, from any state that holds it inside, and then SAMPLE's value is
within 0..MAX_COMPARE. -/
def Obligations.DutyStaysWithinItsRange : Prop :=
  ∀ (i : Instr) (s t : State), s.duty.toNat ≤ 100 → exec i s = .next t →
    t.duty.toNat ≤ 100 ∧ scale t.cfg.maxCompare t.duty.toNat ≤ t.cfg.maxCompare

/-- Every instruction keeps the storage in canonical form and within the cells that exist (20_memory.md R50; log entry
2). -/
def Obligations.InstructionsKeepTheStorage : Prop :=
  ∀ (i : Instr) (s t : State), s.StorageInv → exec i s = .next t → t.StorageInv

/-- Where the model stops, and that it stops nowhere else: PUSH faults exactly when it appends at an index that names no cell,
POP when it takes from one, PARSE and CYCLE when their first POP does, no other instruction faults and none is refused; a
step is refused exactly for parameters the spec refuses and faults only on such an index (20_memory.md R50, 93_implementation_defined.md U6, U7; the fault is
the model's, log entry 4, the refusal log entry 16). -/
def Obligations.WhereTheModelStops : Prop :=
  ∀ (s : State) (f : Fault) (r : Refusal),
    (∀ b, exec (.push b) s = .fault f ↔
      producerCount s ≠ s.cfg.capacity ∧ s.cfg.capacity ≤ s.wr.toNat ∧ f = .noSuchCell s.wr.toNat) ∧
    (exec .pop s = .fault f ↔
      consumerCount s ≠ 0 ∧ s.cfg.capacity ≤ s.rd.toNat ∧ f = .noSuchCell s.rd.toNat) ∧
    (exec .parse s = .fault f ↔
      s.newData = false ∧ consumerCount s ≠ 0 ∧ s.cfg.capacity ≤ s.rd.toNat ∧ f = .noSuchCell s.rd.toNat) ∧
    (exec .cycle s = .fault f ↔
      s.phase = .idle ∧ s.newData = false ∧ consumerCount s ≠ 0 ∧ s.cfg.capacity ≤ s.rd.toNat ∧
      f = .noSuchCell s.rd.toNat) ∧
    (∀ i, exec i s = .fault f → (∃ b, i = .push b) ∨ i = .pop ∨ i = .parse ∨ i = .cycle) ∧
    (∀ i, exec i s ≠ .refused r) ∧
    (step s = .refused r ↔ ¬ s.cfg.Supported ∧ r = .unsupportedParameters) ∧
    (step s = .fault f → s.cfg.Supported ∧
      (s.cfg.capacity ≤ s.wr.toNat ∧ f = .noSuchCell s.wr.toNat ∨
       s.cfg.capacity ≤ s.rd.toNat ∧ f = .noSuchCell s.rd.toNat))

/-! ### Who writes what -/

/-- The single-writer discipline over all instructions: what each register's change says about the instruction
(10_state.md R20, R40, 41_framer_ops.md R106, 20_memory.md R64; for the model's own fields, log entries 1, 5, 7, 8). -/
def Obligations.OnlyTheirWritersChangeRegisters : Prop :=
  ∀ (i : Instr) (s t : State), exec i s = .next t →
    (t.buf ≠ s.buf → ∃ b, i = .push b) ∧
    (t.wAck ≠ s.wAck → (∃ b, i = .push b) ∨ i = .reset) ∧
    (t.wr ≠ s.wr → (∃ b, i = .push b) ∨ i = .clear ∨ i = .reset) ∧
    (t.rd ≠ s.rd → i = .pop ∨ i = .parse ∨ i = .cycle ∨ i = .clear ∨ i = .reset) ∧
    (t.count ≠ s.count → (∃ b, i = .push b) ∨ i = .pop ∨ i = .parse ∨ i = .cycle ∨ i = .clear ∨ i = .reset) ∧
    (t.parser ≠ s.parser → (∃ b, i = .frameStep b) ∨ i = .parse ∨ i = .cycle ∨ i = .reset) ∧
    (t.motor ≠ s.motor →
      (∃ m, i = .forward m ∨ i = .right m ∨ i = .backward m ∨ i = .left m) ∨ i = .pause ∨
      (∃ op m c, i = .pauseChecksumFail op m c ∨ i = .pauseBadOpcode op m ∨ i = .pauseBadMagnitude op m) ∨
      i = .dispatch ∨ i = .cycle ∨ i = .reset) ∧
    (t.cmp ≠ s.cmp → i = .sample ∨ i = .reset) ∧
    (t.phase ≠ s.phase → i = .reset) ∧
    (t.result ≠ s.result → i = .pop ∨ i = .available ∨ i = .validate) ∧
    t.cfg = s.cfg ∧ t.inputs = s.inputs ∧
    (t.lagC ≠ s.lagC → (∃ b, i = .push b) ∨ i = .clear ∨ i = .reset) ∧
    (t.lagP ≠ s.lagP → i = .pop ∨ i = .parse ∨ i = .cycle ∨ i = .clear ∨ i = .reset)

/-! ### What is state and what is not -/

/-- AVAILABLE, VALIDATE, and a POP that finds no byte complete and change no state: every field of 10_state.md R20 and both
lags keep their values (40_ringbuffer_ops.md R91, R92, 41_framer_ops.md R103).  The value returned is handed over beside
the state (log entries 8, 28). -/
def Obligations.ReadsChangeNoState : Prop :=
  ∀ s : State,
    (∃ t, exec .available s = .next t ∧ t.toRegisters = s.toRegisters ∧ t.toLags = s.toLags) ∧
    (∃ t, exec .validate s = .next t ∧ t.toRegisters = s.toRegisters ∧ t.toLags = s.toLags) ∧
    (consumerCount s = 0 →
      ∃ t, exec .pop s = .next t ∧ t.toRegisters = s.toRegisters ∧ t.toLags = s.toLags)

/-- The fields of R20 with the lags are the whole state: from equal ones, under equal parameters, every instruction gives
equal ones and returns the same value, whatever stands in the schedule and in `result`; only CYCLE looks at the CYCLE in
progress (10_state.md R20, R38, 44_control_cycle.md R136; the split is the model's, log entry 28). -/
def Obligations.NothingElseIsState : Prop :=
  ∀ (i : Instr) (s s' t : State),
    s.toRegisters = s'.toRegisters → s.toLags = s'.toLags → s.cfg = s'.cfg → (i = .cycle → s.phase = s'.phase) →
    exec i s = .next t →
    ∃ t', exec i s' = .next t' ∧ t'.toRegisters = t.toRegisters ∧ t'.toLags = t.toLags ∧
      (i ∈ [.pop, .available, .validate] → t'.result = t.result)

/-! ### Orders of steps -/

/-- PUSH and SAMPLE touch disjoint state: either order gives the same result (60_exceptions.md R153). -/
def Obligations.PushAndSampleCommute : Prop :=
  ∀ (b : Byte) (s : State), andThen (exec (.push b) s) (exec .sample) = andThen (exec .sample s) (exec (.push b))

/-- SAMPLE against a PARSE pass: either order gives the same result (60_exceptions.md R155). -/
def Obligations.SampleAndParsePassCommute : Prop :=
  ∀ s : State, andThen (parsePass s) (exec .sample) = andThen (exec .sample s) parsePass

/-- `clr` and `w_valid` at the same instant: in one order the byte is kept, in the other it is lost, and there is no third
outcome (93_implementation_defined.md U12, 70_reset_and_hazards.md R179). -/
def Obligations.ClearAgainstPushHasTwoOutcomes : Prop :=
  ∀ (b : Byte) (s : State), s.Inv →
    (∀ order, s.inputs = [.strobes 0b01010#5 b order] →
      ∃ t, core.run 2 s = .next t ∧ (t.contents = [b] ∧ t.wAck = true ∨ t.contents = [])) ∧
    (s.inputs = [.strobes 0b01010#5 b [.clr]] → ∃ t, core.run 2 s = .next t ∧ t.contents = [b]) ∧
    (s.inputs = [.strobes 0b01010#5 b [.wValid]] → ∃ t, core.run 2 s = .next t ∧ t.contents = [])
end

