-- ==== Sys2Proof/Laws/State.lean ====
section
/-! SUPPORT. What each register write leaves in each field. -/

namespace Sys2Proof.Machine

/-! ### setBuf -/

@[simp] theorem State.setBuf_buf (m : Memory) (s : State) : (s.setBuf m).buf = m := rfl
@[simp] theorem State.setBuf_wr (m : Memory) (s : State) : (s.setBuf m).wr = s.wr := rfl
@[simp] theorem State.setBuf_rd (m : Memory) (s : State) : (s.setBuf m).rd = s.rd := rfl
@[simp] theorem State.setBuf_count (m : Memory) (s : State) : (s.setBuf m).count = s.count := rfl
@[simp] theorem State.setBuf_inFrame (m : Memory) (s : State) : (s.setBuf m).inFrame = s.inFrame := rfl
@[simp] theorem State.setBuf_idx (m : Memory) (s : State) : (s.setBuf m).idx = s.idx := rfl
@[simp] theorem State.setBuf_x0 (m : Memory) (s : State) : (s.setBuf m).x0 = s.x0 := rfl
@[simp] theorem State.setBuf_x1 (m : Memory) (s : State) : (s.setBuf m).x1 = s.x1 := rfl
@[simp] theorem State.setBuf_x2 (m : Memory) (s : State) : (s.setBuf m).x2 = s.x2 := rfl
@[simp] theorem State.setBuf_newData (m : Memory) (s : State) : (s.setBuf m).newData = s.newData := rfl
@[simp] theorem State.setBuf_duty (m : Memory) (s : State) : (s.setBuf m).duty = s.duty := rfl
@[simp] theorem State.setBuf_dirA (m : Memory) (s : State) : (s.setBuf m).dirA = s.dirA := rfl
@[simp] theorem State.setBuf_dirB (m : Memory) (s : State) : (s.setBuf m).dirB = s.dirB := rfl
@[simp] theorem State.setBuf_cmp (m : Memory) (s : State) : (s.setBuf m).cmp = s.cmp := rfl
@[simp] theorem State.setBuf_wAck (m : Memory) (s : State) : (s.setBuf m).wAck = s.wAck := rfl
@[simp] theorem State.setBuf_lagC (m : Memory) (s : State) : (s.setBuf m).lagC = s.lagC := rfl
@[simp] theorem State.setBuf_lagP (m : Memory) (s : State) : (s.setBuf m).lagP = s.lagP := rfl
@[simp] theorem State.setBuf_phase (m : Memory) (s : State) : (s.setBuf m).phase = s.phase := rfl
@[simp] theorem State.setBuf_cfg (m : Memory) (s : State) : (s.setBuf m).cfg = s.cfg := rfl
@[simp] theorem State.setBuf_inputs (m : Memory) (s : State) : (s.setBuf m).inputs = s.inputs := rfl
@[simp] theorem State.setBuf_result (m : Memory) (s : State) : (s.setBuf m).result = s.result := rfl

/-! ### setRing -/

@[simp] theorem State.setRing_buf (w r n : Byte) (s : State) : (s.setRing w r n).buf = s.buf := rfl
@[simp] theorem State.setRing_wr (w r n : Byte) (s : State) : (s.setRing w r n).wr = w := rfl
@[simp] theorem State.setRing_rd (w r n : Byte) (s : State) : (s.setRing w r n).rd = r := rfl
@[simp] theorem State.setRing_count (w r n : Byte) (s : State) : (s.setRing w r n).count = n := rfl
@[simp] theorem State.setRing_inFrame (w r n : Byte) (s : State) : (s.setRing w r n).inFrame = s.inFrame := rfl
@[simp] theorem State.setRing_idx (w r n : Byte) (s : State) : (s.setRing w r n).idx = s.idx := rfl
@[simp] theorem State.setRing_x0 (w r n : Byte) (s : State) : (s.setRing w r n).x0 = s.x0 := rfl
@[simp] theorem State.setRing_x1 (w r n : Byte) (s : State) : (s.setRing w r n).x1 = s.x1 := rfl
@[simp] theorem State.setRing_x2 (w r n : Byte) (s : State) : (s.setRing w r n).x2 = s.x2 := rfl
@[simp] theorem State.setRing_newData (w r n : Byte) (s : State) : (s.setRing w r n).newData = s.newData := rfl
@[simp] theorem State.setRing_duty (w r n : Byte) (s : State) : (s.setRing w r n).duty = s.duty := rfl
@[simp] theorem State.setRing_dirA (w r n : Byte) (s : State) : (s.setRing w r n).dirA = s.dirA := rfl
@[simp] theorem State.setRing_dirB (w r n : Byte) (s : State) : (s.setRing w r n).dirB = s.dirB := rfl
@[simp] theorem State.setRing_cmp (w r n : Byte) (s : State) : (s.setRing w r n).cmp = s.cmp := rfl
@[simp] theorem State.setRing_wAck (w r n : Byte) (s : State) : (s.setRing w r n).wAck = s.wAck := rfl
@[simp] theorem State.setRing_lagC (w r n : Byte) (s : State) : (s.setRing w r n).lagC = s.lagC := rfl
@[simp] theorem State.setRing_lagP (w r n : Byte) (s : State) : (s.setRing w r n).lagP = s.lagP := rfl
@[simp] theorem State.setRing_phase (w r n : Byte) (s : State) : (s.setRing w r n).phase = s.phase := rfl
@[simp] theorem State.setRing_cfg (w r n : Byte) (s : State) : (s.setRing w r n).cfg = s.cfg := rfl
@[simp] theorem State.setRing_inputs (w r n : Byte) (s : State) : (s.setRing w r n).inputs = s.inputs := rfl
@[simp] theorem State.setRing_result (w r n : Byte) (s : State) : (s.setRing w r n).result = s.result := rfl

/-! ### setLags -/

@[simp] theorem State.setLags_buf (c p : Nat) (s : State) : (s.setLags c p).buf = s.buf := rfl
@[simp] theorem State.setLags_wr (c p : Nat) (s : State) : (s.setLags c p).wr = s.wr := rfl
@[simp] theorem State.setLags_rd (c p : Nat) (s : State) : (s.setLags c p).rd = s.rd := rfl
@[simp] theorem State.setLags_count (c p : Nat) (s : State) : (s.setLags c p).count = s.count := rfl
@[simp] theorem State.setLags_inFrame (c p : Nat) (s : State) : (s.setLags c p).inFrame = s.inFrame := rfl
@[simp] theorem State.setLags_idx (c p : Nat) (s : State) : (s.setLags c p).idx = s.idx := rfl
@[simp] theorem State.setLags_x0 (c p : Nat) (s : State) : (s.setLags c p).x0 = s.x0 := rfl
@[simp] theorem State.setLags_x1 (c p : Nat) (s : State) : (s.setLags c p).x1 = s.x1 := rfl
@[simp] theorem State.setLags_x2 (c p : Nat) (s : State) : (s.setLags c p).x2 = s.x2 := rfl
@[simp] theorem State.setLags_newData (c p : Nat) (s : State) : (s.setLags c p).newData = s.newData := rfl
@[simp] theorem State.setLags_duty (c p : Nat) (s : State) : (s.setLags c p).duty = s.duty := rfl
@[simp] theorem State.setLags_dirA (c p : Nat) (s : State) : (s.setLags c p).dirA = s.dirA := rfl
@[simp] theorem State.setLags_dirB (c p : Nat) (s : State) : (s.setLags c p).dirB = s.dirB := rfl
@[simp] theorem State.setLags_cmp (c p : Nat) (s : State) : (s.setLags c p).cmp = s.cmp := rfl
@[simp] theorem State.setLags_wAck (c p : Nat) (s : State) : (s.setLags c p).wAck = s.wAck := rfl
@[simp] theorem State.setLags_lagC (c p : Nat) (s : State) : (s.setLags c p).lagC = c := rfl
@[simp] theorem State.setLags_lagP (c p : Nat) (s : State) : (s.setLags c p).lagP = p := rfl
@[simp] theorem State.setLags_phase (c p : Nat) (s : State) : (s.setLags c p).phase = s.phase := rfl
@[simp] theorem State.setLags_cfg (c p : Nat) (s : State) : (s.setLags c p).cfg = s.cfg := rfl
@[simp] theorem State.setLags_inputs (c p : Nat) (s : State) : (s.setLags c p).inputs = s.inputs := rfl
@[simp] theorem State.setLags_result (c p : Nat) (s : State) : (s.setLags c p).result = s.result := rfl

/-! ### setAck -/

@[simp] theorem State.setAck_buf (b : Bool) (s : State) : (s.setAck b).buf = s.buf := rfl
@[simp] theorem State.setAck_wr (b : Bool) (s : State) : (s.setAck b).wr = s.wr := rfl
@[simp] theorem State.setAck_rd (b : Bool) (s : State) : (s.setAck b).rd = s.rd := rfl
@[simp] theorem State.setAck_count (b : Bool) (s : State) : (s.setAck b).count = s.count := rfl
@[simp] theorem State.setAck_inFrame (b : Bool) (s : State) : (s.setAck b).inFrame = s.inFrame := rfl
@[simp] theorem State.setAck_idx (b : Bool) (s : State) : (s.setAck b).idx = s.idx := rfl
@[simp] theorem State.setAck_x0 (b : Bool) (s : State) : (s.setAck b).x0 = s.x0 := rfl
@[simp] theorem State.setAck_x1 (b : Bool) (s : State) : (s.setAck b).x1 = s.x1 := rfl
@[simp] theorem State.setAck_x2 (b : Bool) (s : State) : (s.setAck b).x2 = s.x2 := rfl
@[simp] theorem State.setAck_newData (b : Bool) (s : State) : (s.setAck b).newData = s.newData := rfl
@[simp] theorem State.setAck_duty (b : Bool) (s : State) : (s.setAck b).duty = s.duty := rfl
@[simp] theorem State.setAck_dirA (b : Bool) (s : State) : (s.setAck b).dirA = s.dirA := rfl
@[simp] theorem State.setAck_dirB (b : Bool) (s : State) : (s.setAck b).dirB = s.dirB := rfl
@[simp] theorem State.setAck_cmp (b : Bool) (s : State) : (s.setAck b).cmp = s.cmp := rfl
@[simp] theorem State.setAck_wAck (b : Bool) (s : State) : (s.setAck b).wAck = b := rfl
@[simp] theorem State.setAck_lagC (b : Bool) (s : State) : (s.setAck b).lagC = s.lagC := rfl
@[simp] theorem State.setAck_lagP (b : Bool) (s : State) : (s.setAck b).lagP = s.lagP := rfl
@[simp] theorem State.setAck_phase (b : Bool) (s : State) : (s.setAck b).phase = s.phase := rfl
@[simp] theorem State.setAck_cfg (b : Bool) (s : State) : (s.setAck b).cfg = s.cfg := rfl
@[simp] theorem State.setAck_inputs (b : Bool) (s : State) : (s.setAck b).inputs = s.inputs := rfl
@[simp] theorem State.setAck_result (b : Bool) (s : State) : (s.setAck b).result = s.result := rfl

/-! ### setPayload -/

@[simp] theorem State.setPayload_buf (i : Fin 3) (v : Byte) (s : State) : (s.setPayload i v).buf = s.buf := rfl
@[simp] theorem State.setPayload_wr (i : Fin 3) (v : Byte) (s : State) : (s.setPayload i v).wr = s.wr := rfl
@[simp] theorem State.setPayload_rd (i : Fin 3) (v : Byte) (s : State) : (s.setPayload i v).rd = s.rd := rfl
@[simp] theorem State.setPayload_count (i : Fin 3) (v : Byte) (s : State) : (s.setPayload i v).count = s.count := rfl
@[simp] theorem State.setPayload_inFrame (i : Fin 3) (v : Byte) (s : State) : (s.setPayload i v).inFrame = s.inFrame := rfl
@[simp] theorem State.setPayload_idx (i : Fin 3) (v : Byte) (s : State) : (s.setPayload i v).idx = s.idx := rfl
@[simp] theorem State.setPayload_x0 (i : Fin 3) (v : Byte) (s : State) : (s.setPayload i v).x0 = if i = 0 then v else s.x0 := rfl
@[simp] theorem State.setPayload_x1 (i : Fin 3) (v : Byte) (s : State) : (s.setPayload i v).x1 = if i = 1 then v else s.x1 := rfl
@[simp] theorem State.setPayload_x2 (i : Fin 3) (v : Byte) (s : State) : (s.setPayload i v).x2 = if i = 2 then v else s.x2 := rfl
@[simp] theorem State.setPayload_newData (i : Fin 3) (v : Byte) (s : State) : (s.setPayload i v).newData = s.newData := rfl
@[simp] theorem State.setPayload_duty (i : Fin 3) (v : Byte) (s : State) : (s.setPayload i v).duty = s.duty := rfl
@[simp] theorem State.setPayload_dirA (i : Fin 3) (v : Byte) (s : State) : (s.setPayload i v).dirA = s.dirA := rfl
@[simp] theorem State.setPayload_dirB (i : Fin 3) (v : Byte) (s : State) : (s.setPayload i v).dirB = s.dirB := rfl
@[simp] theorem State.setPayload_cmp (i : Fin 3) (v : Byte) (s : State) : (s.setPayload i v).cmp = s.cmp := rfl
@[simp] theorem State.setPayload_wAck (i : Fin 3) (v : Byte) (s : State) : (s.setPayload i v).wAck = s.wAck := rfl
@[simp] theorem State.setPayload_lagC (i : Fin 3) (v : Byte) (s : State) : (s.setPayload i v).lagC = s.lagC := rfl
@[simp] theorem State.setPayload_lagP (i : Fin 3) (v : Byte) (s : State) : (s.setPayload i v).lagP = s.lagP := rfl
@[simp] theorem State.setPayload_phase (i : Fin 3) (v : Byte) (s : State) : (s.setPayload i v).phase = s.phase := rfl
@[simp] theorem State.setPayload_cfg (i : Fin 3) (v : Byte) (s : State) : (s.setPayload i v).cfg = s.cfg := rfl
@[simp] theorem State.setPayload_inputs (i : Fin 3) (v : Byte) (s : State) : (s.setPayload i v).inputs = s.inputs := rfl
@[simp] theorem State.setPayload_result (i : Fin 3) (v : Byte) (s : State) : (s.setPayload i v).result = s.result := rfl

/-! ### setParser -/

@[simp] theorem State.setParser_buf (f : Bool) (i : Fin 3) (s : State) : (s.setParser f i).buf = s.buf := rfl
@[simp] theorem State.setParser_wr (f : Bool) (i : Fin 3) (s : State) : (s.setParser f i).wr = s.wr := rfl
@[simp] theorem State.setParser_rd (f : Bool) (i : Fin 3) (s : State) : (s.setParser f i).rd = s.rd := rfl
@[simp] theorem State.setParser_count (f : Bool) (i : Fin 3) (s : State) : (s.setParser f i).count = s.count := rfl
@[simp] theorem State.setParser_inFrame (f : Bool) (i : Fin 3) (s : State) : (s.setParser f i).inFrame = f := rfl
@[simp] theorem State.setParser_idx (f : Bool) (i : Fin 3) (s : State) : (s.setParser f i).idx = i := rfl
@[simp] theorem State.setParser_x0 (f : Bool) (i : Fin 3) (s : State) : (s.setParser f i).x0 = s.x0 := rfl
@[simp] theorem State.setParser_x1 (f : Bool) (i : Fin 3) (s : State) : (s.setParser f i).x1 = s.x1 := rfl
@[simp] theorem State.setParser_x2 (f : Bool) (i : Fin 3) (s : State) : (s.setParser f i).x2 = s.x2 := rfl
@[simp] theorem State.setParser_newData (f : Bool) (i : Fin 3) (s : State) : (s.setParser f i).newData = s.newData := rfl
@[simp] theorem State.setParser_duty (f : Bool) (i : Fin 3) (s : State) : (s.setParser f i).duty = s.duty := rfl
@[simp] theorem State.setParser_dirA (f : Bool) (i : Fin 3) (s : State) : (s.setParser f i).dirA = s.dirA := rfl
@[simp] theorem State.setParser_dirB (f : Bool) (i : Fin 3) (s : State) : (s.setParser f i).dirB = s.dirB := rfl
@[simp] theorem State.setParser_cmp (f : Bool) (i : Fin 3) (s : State) : (s.setParser f i).cmp = s.cmp := rfl
@[simp] theorem State.setParser_wAck (f : Bool) (i : Fin 3) (s : State) : (s.setParser f i).wAck = s.wAck := rfl
@[simp] theorem State.setParser_lagC (f : Bool) (i : Fin 3) (s : State) : (s.setParser f i).lagC = s.lagC := rfl
@[simp] theorem State.setParser_lagP (f : Bool) (i : Fin 3) (s : State) : (s.setParser f i).lagP = s.lagP := rfl
@[simp] theorem State.setParser_phase (f : Bool) (i : Fin 3) (s : State) : (s.setParser f i).phase = s.phase := rfl
@[simp] theorem State.setParser_cfg (f : Bool) (i : Fin 3) (s : State) : (s.setParser f i).cfg = s.cfg := rfl
@[simp] theorem State.setParser_inputs (f : Bool) (i : Fin 3) (s : State) : (s.setParser f i).inputs = s.inputs := rfl
@[simp] theorem State.setParser_result (f : Bool) (i : Fin 3) (s : State) : (s.setParser f i).result = s.result := rfl

/-! ### setNewData -/

@[simp] theorem State.setNewData_buf (n : Bool) (s : State) : (s.setNewData n).buf = s.buf := rfl
@[simp] theorem State.setNewData_wr (n : Bool) (s : State) : (s.setNewData n).wr = s.wr := rfl
@[simp] theorem State.setNewData_rd (n : Bool) (s : State) : (s.setNewData n).rd = s.rd := rfl
@[simp] theorem State.setNewData_count (n : Bool) (s : State) : (s.setNewData n).count = s.count := rfl
@[simp] theorem State.setNewData_inFrame (n : Bool) (s : State) : (s.setNewData n).inFrame = s.inFrame := rfl
@[simp] theorem State.setNewData_idx (n : Bool) (s : State) : (s.setNewData n).idx = s.idx := rfl
@[simp] theorem State.setNewData_x0 (n : Bool) (s : State) : (s.setNewData n).x0 = s.x0 := rfl
@[simp] theorem State.setNewData_x1 (n : Bool) (s : State) : (s.setNewData n).x1 = s.x1 := rfl
@[simp] theorem State.setNewData_x2 (n : Bool) (s : State) : (s.setNewData n).x2 = s.x2 := rfl
@[simp] theorem State.setNewData_newData (n : Bool) (s : State) : (s.setNewData n).newData = n := rfl
@[simp] theorem State.setNewData_duty (n : Bool) (s : State) : (s.setNewData n).duty = s.duty := rfl
@[simp] theorem State.setNewData_dirA (n : Bool) (s : State) : (s.setNewData n).dirA = s.dirA := rfl
@[simp] theorem State.setNewData_dirB (n : Bool) (s : State) : (s.setNewData n).dirB = s.dirB := rfl
@[simp] theorem State.setNewData_cmp (n : Bool) (s : State) : (s.setNewData n).cmp = s.cmp := rfl
@[simp] theorem State.setNewData_wAck (n : Bool) (s : State) : (s.setNewData n).wAck = s.wAck := rfl
@[simp] theorem State.setNewData_lagC (n : Bool) (s : State) : (s.setNewData n).lagC = s.lagC := rfl
@[simp] theorem State.setNewData_lagP (n : Bool) (s : State) : (s.setNewData n).lagP = s.lagP := rfl
@[simp] theorem State.setNewData_phase (n : Bool) (s : State) : (s.setNewData n).phase = s.phase := rfl
@[simp] theorem State.setNewData_cfg (n : Bool) (s : State) : (s.setNewData n).cfg = s.cfg := rfl
@[simp] theorem State.setNewData_inputs (n : Bool) (s : State) : (s.setNewData n).inputs = s.inputs := rfl
@[simp] theorem State.setNewData_result (n : Bool) (s : State) : (s.setNewData n).result = s.result := rfl

/-! ### setMotor -/

@[simp] theorem State.setMotor_buf (a b : Bool) (d : Byte) (s : State) : (s.setMotor a b d).buf = s.buf := rfl
@[simp] theorem State.setMotor_wr (a b : Bool) (d : Byte) (s : State) : (s.setMotor a b d).wr = s.wr := rfl
@[simp] theorem State.setMotor_rd (a b : Bool) (d : Byte) (s : State) : (s.setMotor a b d).rd = s.rd := rfl
@[simp] theorem State.setMotor_count (a b : Bool) (d : Byte) (s : State) : (s.setMotor a b d).count = s.count := rfl
@[simp] theorem State.setMotor_inFrame (a b : Bool) (d : Byte) (s : State) : (s.setMotor a b d).inFrame = s.inFrame := rfl
@[simp] theorem State.setMotor_idx (a b : Bool) (d : Byte) (s : State) : (s.setMotor a b d).idx = s.idx := rfl
@[simp] theorem State.setMotor_x0 (a b : Bool) (d : Byte) (s : State) : (s.setMotor a b d).x0 = s.x0 := rfl
@[simp] theorem State.setMotor_x1 (a b : Bool) (d : Byte) (s : State) : (s.setMotor a b d).x1 = s.x1 := rfl
@[simp] theorem State.setMotor_x2 (a b : Bool) (d : Byte) (s : State) : (s.setMotor a b d).x2 = s.x2 := rfl
@[simp] theorem State.setMotor_newData (a b : Bool) (d : Byte) (s : State) : (s.setMotor a b d).newData = s.newData := rfl
@[simp] theorem State.setMotor_duty (a b : Bool) (d : Byte) (s : State) : (s.setMotor a b d).duty = d := rfl
@[simp] theorem State.setMotor_dirA (a b : Bool) (d : Byte) (s : State) : (s.setMotor a b d).dirA = a := rfl
@[simp] theorem State.setMotor_dirB (a b : Bool) (d : Byte) (s : State) : (s.setMotor a b d).dirB = b := rfl
@[simp] theorem State.setMotor_cmp (a b : Bool) (d : Byte) (s : State) : (s.setMotor a b d).cmp = s.cmp := rfl
@[simp] theorem State.setMotor_wAck (a b : Bool) (d : Byte) (s : State) : (s.setMotor a b d).wAck = s.wAck := rfl
@[simp] theorem State.setMotor_lagC (a b : Bool) (d : Byte) (s : State) : (s.setMotor a b d).lagC = s.lagC := rfl
@[simp] theorem State.setMotor_lagP (a b : Bool) (d : Byte) (s : State) : (s.setMotor a b d).lagP = s.lagP := rfl
@[simp] theorem State.setMotor_phase (a b : Bool) (d : Byte) (s : State) : (s.setMotor a b d).phase = s.phase := rfl
@[simp] theorem State.setMotor_cfg (a b : Bool) (d : Byte) (s : State) : (s.setMotor a b d).cfg = s.cfg := rfl
@[simp] theorem State.setMotor_inputs (a b : Bool) (d : Byte) (s : State) : (s.setMotor a b d).inputs = s.inputs := rfl
@[simp] theorem State.setMotor_result (a b : Bool) (d : Byte) (s : State) : (s.setMotor a b d).result = s.result := rfl

/-! ### setCmp -/

@[simp] theorem State.setCmp_buf (n : Nat) (s : State) : (s.setCmp n).buf = s.buf := rfl
@[simp] theorem State.setCmp_wr (n : Nat) (s : State) : (s.setCmp n).wr = s.wr := rfl
@[simp] theorem State.setCmp_rd (n : Nat) (s : State) : (s.setCmp n).rd = s.rd := rfl
@[simp] theorem State.setCmp_count (n : Nat) (s : State) : (s.setCmp n).count = s.count := rfl
@[simp] theorem State.setCmp_inFrame (n : Nat) (s : State) : (s.setCmp n).inFrame = s.inFrame := rfl
@[simp] theorem State.setCmp_idx (n : Nat) (s : State) : (s.setCmp n).idx = s.idx := rfl
@[simp] theorem State.setCmp_x0 (n : Nat) (s : State) : (s.setCmp n).x0 = s.x0 := rfl
@[simp] theorem State.setCmp_x1 (n : Nat) (s : State) : (s.setCmp n).x1 = s.x1 := rfl
@[simp] theorem State.setCmp_x2 (n : Nat) (s : State) : (s.setCmp n).x2 = s.x2 := rfl
@[simp] theorem State.setCmp_newData (n : Nat) (s : State) : (s.setCmp n).newData = s.newData := rfl
@[simp] theorem State.setCmp_duty (n : Nat) (s : State) : (s.setCmp n).duty = s.duty := rfl
@[simp] theorem State.setCmp_dirA (n : Nat) (s : State) : (s.setCmp n).dirA = s.dirA := rfl
@[simp] theorem State.setCmp_dirB (n : Nat) (s : State) : (s.setCmp n).dirB = s.dirB := rfl
@[simp] theorem State.setCmp_cmp (n : Nat) (s : State) : (s.setCmp n).cmp = n := rfl
@[simp] theorem State.setCmp_wAck (n : Nat) (s : State) : (s.setCmp n).wAck = s.wAck := rfl
@[simp] theorem State.setCmp_lagC (n : Nat) (s : State) : (s.setCmp n).lagC = s.lagC := rfl
@[simp] theorem State.setCmp_lagP (n : Nat) (s : State) : (s.setCmp n).lagP = s.lagP := rfl
@[simp] theorem State.setCmp_phase (n : Nat) (s : State) : (s.setCmp n).phase = s.phase := rfl
@[simp] theorem State.setCmp_cfg (n : Nat) (s : State) : (s.setCmp n).cfg = s.cfg := rfl
@[simp] theorem State.setCmp_inputs (n : Nat) (s : State) : (s.setCmp n).inputs = s.inputs := rfl
@[simp] theorem State.setCmp_result (n : Nat) (s : State) : (s.setCmp n).result = s.result := rfl

/-! ### setPhase -/

@[simp] theorem State.setPhase_buf (p : CyclePhase) (s : State) : (s.setPhase p).buf = s.buf := rfl
@[simp] theorem State.setPhase_wr (p : CyclePhase) (s : State) : (s.setPhase p).wr = s.wr := rfl
@[simp] theorem State.setPhase_rd (p : CyclePhase) (s : State) : (s.setPhase p).rd = s.rd := rfl
@[simp] theorem State.setPhase_count (p : CyclePhase) (s : State) : (s.setPhase p).count = s.count := rfl
@[simp] theorem State.setPhase_inFrame (p : CyclePhase) (s : State) : (s.setPhase p).inFrame = s.inFrame := rfl
@[simp] theorem State.setPhase_idx (p : CyclePhase) (s : State) : (s.setPhase p).idx = s.idx := rfl
@[simp] theorem State.setPhase_x0 (p : CyclePhase) (s : State) : (s.setPhase p).x0 = s.x0 := rfl
@[simp] theorem State.setPhase_x1 (p : CyclePhase) (s : State) : (s.setPhase p).x1 = s.x1 := rfl
@[simp] theorem State.setPhase_x2 (p : CyclePhase) (s : State) : (s.setPhase p).x2 = s.x2 := rfl
@[simp] theorem State.setPhase_newData (p : CyclePhase) (s : State) : (s.setPhase p).newData = s.newData := rfl
@[simp] theorem State.setPhase_duty (p : CyclePhase) (s : State) : (s.setPhase p).duty = s.duty := rfl
@[simp] theorem State.setPhase_dirA (p : CyclePhase) (s : State) : (s.setPhase p).dirA = s.dirA := rfl
@[simp] theorem State.setPhase_dirB (p : CyclePhase) (s : State) : (s.setPhase p).dirB = s.dirB := rfl
@[simp] theorem State.setPhase_cmp (p : CyclePhase) (s : State) : (s.setPhase p).cmp = s.cmp := rfl
@[simp] theorem State.setPhase_wAck (p : CyclePhase) (s : State) : (s.setPhase p).wAck = s.wAck := rfl
@[simp] theorem State.setPhase_lagC (p : CyclePhase) (s : State) : (s.setPhase p).lagC = s.lagC := rfl
@[simp] theorem State.setPhase_lagP (p : CyclePhase) (s : State) : (s.setPhase p).lagP = s.lagP := rfl
@[simp] theorem State.setPhase_phase (p : CyclePhase) (s : State) : (s.setPhase p).phase = p := rfl
@[simp] theorem State.setPhase_cfg (p : CyclePhase) (s : State) : (s.setPhase p).cfg = s.cfg := rfl
@[simp] theorem State.setPhase_inputs (p : CyclePhase) (s : State) : (s.setPhase p).inputs = s.inputs := rfl
@[simp] theorem State.setPhase_result (p : CyclePhase) (s : State) : (s.setPhase p).result = s.result := rfl

/-! ### setInputs -/

@[simp] theorem State.setInputs_buf (l : List Input) (s : State) : (s.setInputs l).buf = s.buf := rfl
@[simp] theorem State.setInputs_wr (l : List Input) (s : State) : (s.setInputs l).wr = s.wr := rfl
@[simp] theorem State.setInputs_rd (l : List Input) (s : State) : (s.setInputs l).rd = s.rd := rfl
@[simp] theorem State.setInputs_count (l : List Input) (s : State) : (s.setInputs l).count = s.count := rfl
@[simp] theorem State.setInputs_inFrame (l : List Input) (s : State) : (s.setInputs l).inFrame = s.inFrame := rfl
@[simp] theorem State.setInputs_idx (l : List Input) (s : State) : (s.setInputs l).idx = s.idx := rfl
@[simp] theorem State.setInputs_x0 (l : List Input) (s : State) : (s.setInputs l).x0 = s.x0 := rfl
@[simp] theorem State.setInputs_x1 (l : List Input) (s : State) : (s.setInputs l).x1 = s.x1 := rfl
@[simp] theorem State.setInputs_x2 (l : List Input) (s : State) : (s.setInputs l).x2 = s.x2 := rfl
@[simp] theorem State.setInputs_newData (l : List Input) (s : State) : (s.setInputs l).newData = s.newData := rfl
@[simp] theorem State.setInputs_duty (l : List Input) (s : State) : (s.setInputs l).duty = s.duty := rfl
@[simp] theorem State.setInputs_dirA (l : List Input) (s : State) : (s.setInputs l).dirA = s.dirA := rfl
@[simp] theorem State.setInputs_dirB (l : List Input) (s : State) : (s.setInputs l).dirB = s.dirB := rfl
@[simp] theorem State.setInputs_cmp (l : List Input) (s : State) : (s.setInputs l).cmp = s.cmp := rfl
@[simp] theorem State.setInputs_wAck (l : List Input) (s : State) : (s.setInputs l).wAck = s.wAck := rfl
@[simp] theorem State.setInputs_lagC (l : List Input) (s : State) : (s.setInputs l).lagC = s.lagC := rfl
@[simp] theorem State.setInputs_lagP (l : List Input) (s : State) : (s.setInputs l).lagP = s.lagP := rfl
@[simp] theorem State.setInputs_phase (l : List Input) (s : State) : (s.setInputs l).phase = s.phase := rfl
@[simp] theorem State.setInputs_cfg (l : List Input) (s : State) : (s.setInputs l).cfg = s.cfg := rfl
@[simp] theorem State.setInputs_inputs (l : List Input) (s : State) : (s.setInputs l).inputs = l := rfl
@[simp] theorem State.setInputs_result (l : List Input) (s : State) : (s.setInputs l).result = s.result := rfl

/-! ### setResult -/

@[simp] theorem State.setResult_buf (r : OpResult) (s : State) : (s.setResult r).buf = s.buf := rfl
@[simp] theorem State.setResult_wr (r : OpResult) (s : State) : (s.setResult r).wr = s.wr := rfl
@[simp] theorem State.setResult_rd (r : OpResult) (s : State) : (s.setResult r).rd = s.rd := rfl
@[simp] theorem State.setResult_count (r : OpResult) (s : State) : (s.setResult r).count = s.count := rfl
@[simp] theorem State.setResult_inFrame (r : OpResult) (s : State) : (s.setResult r).inFrame = s.inFrame := rfl
@[simp] theorem State.setResult_idx (r : OpResult) (s : State) : (s.setResult r).idx = s.idx := rfl
@[simp] theorem State.setResult_x0 (r : OpResult) (s : State) : (s.setResult r).x0 = s.x0 := rfl
@[simp] theorem State.setResult_x1 (r : OpResult) (s : State) : (s.setResult r).x1 = s.x1 := rfl
@[simp] theorem State.setResult_x2 (r : OpResult) (s : State) : (s.setResult r).x2 = s.x2 := rfl
@[simp] theorem State.setResult_newData (r : OpResult) (s : State) : (s.setResult r).newData = s.newData := rfl
@[simp] theorem State.setResult_duty (r : OpResult) (s : State) : (s.setResult r).duty = s.duty := rfl
@[simp] theorem State.setResult_dirA (r : OpResult) (s : State) : (s.setResult r).dirA = s.dirA := rfl
@[simp] theorem State.setResult_dirB (r : OpResult) (s : State) : (s.setResult r).dirB = s.dirB := rfl
@[simp] theorem State.setResult_cmp (r : OpResult) (s : State) : (s.setResult r).cmp = s.cmp := rfl
@[simp] theorem State.setResult_wAck (r : OpResult) (s : State) : (s.setResult r).wAck = s.wAck := rfl
@[simp] theorem State.setResult_lagC (r : OpResult) (s : State) : (s.setResult r).lagC = s.lagC := rfl
@[simp] theorem State.setResult_lagP (r : OpResult) (s : State) : (s.setResult r).lagP = s.lagP := rfl
@[simp] theorem State.setResult_phase (r : OpResult) (s : State) : (s.setResult r).phase = s.phase := rfl
@[simp] theorem State.setResult_cfg (r : OpResult) (s : State) : (s.setResult r).cfg = s.cfg := rfl
@[simp] theorem State.setResult_inputs (r : OpResult) (s : State) : (s.setResult r).inputs = s.inputs := rfl
@[simp] theorem State.setResult_result (r : OpResult) (s : State) : (s.setResult r).result = r := rfl

/-! ### The parts of State -/

/-- States with the same parts are the same. -/
theorem State.ext_parts {s t : State} (hr : s.toRegisters = t.toRegisters) (hl : s.toLags = t.toLags)
    (hc : s.toRunContext = t.toRunContext) : s = t := by
  cases s
  cases t
  simp_all

@[simp] theorem State.setPhase_toRegisters (p : CyclePhase) (s : State) :
    (s.setPhase p).toRegisters = s.toRegisters := rfl
@[simp] theorem State.setPhase_toLags (p : CyclePhase) (s : State) : (s.setPhase p).toLags = s.toLags := rfl
@[simp] theorem State.setInputs_toRegisters (l : List Input) (s : State) :
    (s.setInputs l).toRegisters = s.toRegisters := rfl
@[simp] theorem State.setInputs_toLags (l : List Input) (s : State) : (s.setInputs l).toLags = s.toLags := rfl
@[simp] theorem State.setResult_toRegisters (r : OpResult) (s : State) :
    (s.setResult r).toRegisters = s.toRegisters := rfl
@[simp] theorem State.setResult_toLags (r : OpResult) (s : State) : (s.setResult r).toLags = s.toLags := rfl

end Sys2Proof.Machine
end

