-- ==== Sys2Proof/Laws/Memory.lean ====
section
/-! SUPPORT. Read after write, the canonical form, and that equal readings are equal storages. -/

namespace Sys2Proof.Machine

@[simp] theorem Memory.read_nil (a : Nat) : Memory.read [] a = unwrittenByte := rfl

theorem Memory.read_cons (k : Nat) (v : Byte) (m : Memory) (a : Nat) :
    Memory.read ((k, v) :: m) a = if k = a then v else Memory.read m a := rfl

/-- A cell below every listed address reads as unwritten. -/
theorem Memory.read_of_all_lt {m : Memory} {a : Nat} (h : ∀ c ∈ m, a < c.1) : Memory.read m a = unwrittenByte := by
  induction m with
  | nil => rfl
  | cons c m ih =>
    obtain ⟨k, v⟩ := c
    have hk : a < k := h (k, v) (by simp)
    rw [Memory.read_cons, if_neg (by omega), ih (fun d hd => h d (by simp [hd]))]

theorem Memory.wf_cons {k : Nat} {v : Byte} {m : Memory} :
    Memory.wf ((k, v) :: m) = true ↔ v ≠ unwrittenByte ∧ (∀ c ∈ m, k < c.1) ∧ Memory.wf m = true := by
  simp [Memory.wf, and_assoc]

@[simp] theorem Memory.wf_nil : Memory.wf [] = true := rfl

/-- The entry put in front reads back, over a storage that does not list its cell. -/
theorem Memory.read_put_same {m : Memory} {a : Nat} {v : Byte} (h : ∀ c ∈ m, a < c.1) :
    Memory.read (Memory.put a v m) a = v := by
  unfold Memory.put
  split
  · next hv => rw [Memory.read_of_all_lt h, hv]
  · rw [Memory.read_cons, if_pos rfl]

theorem Memory.read_put_other {m : Memory} {a b : Nat} {v : Byte} (h : a ≠ b) :
    Memory.read (Memory.put a v m) b = Memory.read m b := by
  unfold Memory.put
  split
  · rfl
  · rw [Memory.read_cons, if_neg h]

/-- A write leaves every other cell alone. -/
theorem Memory.read_write_other {m : Memory} {a b : Nat} {v : Byte} (h : a ≠ b) :
    Memory.read (Memory.write m a v) b = Memory.read m b := by
  induction m with
  | nil => exact Memory.read_put_other h
  | cons c m ih =>
    obtain ⟨k, u⟩ := c
    unfold Memory.write
    split
    · rw [Memory.read_cons, Memory.read_cons, ih]
    · split
      · next hk => rw [Memory.read_put_other h, Memory.read_cons, if_neg (by omega)]
      · exact Memory.read_put_other h

/-- A read after a write to the same cell gives the byte written. -/
theorem Memory.read_write_same {m : Memory} {a : Nat} {v : Byte} (h : Memory.wf m = true) :
    Memory.read (Memory.write m a v) a = v := by
  induction m with
  | nil => exact Memory.read_put_same (by simp)
  | cons c m ih =>
    obtain ⟨k, u⟩ := c
    obtain ⟨-, hlt, hm⟩ := Memory.wf_cons.mp h
    unfold Memory.write
    split
    · rw [Memory.read_cons, if_neg (by omega), ih hm]
    · split
      · next hk => exact Memory.read_put_same (hk ▸ hlt)
      · refine Memory.read_put_same fun d hd => ?_
        rcases List.mem_cons.mp hd with rfl | hd
        · simp only; omega
        · have := hlt d hd; omega

/-- Both read laws at once. -/
theorem Memory.read_write {m : Memory} (h : Memory.wf m = true) (a b : Nat) (v : Byte) :
    Memory.read (Memory.write m a v) b = if b = a then v else Memory.read m b := by
  split
  · next hb => rw [hb, Memory.read_write_same h]
  · next hb => exact Memory.read_write_other (Ne.symm hb)

/-- A write lists no cell but the old ones and the one written. -/
theorem Memory.mem_write {m : Memory} {a : Nat} {v : Byte} {c : Host.Cell} (h : c ∈ Memory.write m a v) :
    c = (a, v) ∨ c ∈ m := by
  induction m with
  | nil =>
    unfold Memory.write Memory.put at h
    split at h
    · cases h
    · simpa using h
  | cons d m ih =>
    obtain ⟨k, u⟩ := d
    unfold Memory.write Memory.put at h
    split at h
    · rcases List.mem_cons.mp h with rfl | h
      · simp
      · rcases ih h with h | h <;> simp [h]
    · split at h <;> split at h <;> simp_all; tauto

theorem Memory.wf_put {m : Memory} {a : Nat} {v : Byte} (h : ∀ c ∈ m, a < c.1) (hm : Memory.wf m = true) :
    Memory.wf (Memory.put a v m) = true := by
  unfold Memory.put
  split
  · exact hm
  · next hv => exact Memory.wf_cons.mpr ⟨hv, h, hm⟩

/-- Every write keeps the canonical form. -/
theorem Memory.wf_write {m : Memory} {a : Nat} {v : Byte} (h : Memory.wf m = true) :
    Memory.wf (Memory.write m a v) = true := by
  induction m with
  | nil => exact Memory.wf_put (by simp) rfl
  | cons c m ih =>
    obtain ⟨k, u⟩ := c
    obtain ⟨hu, hlt, hm⟩ := Memory.wf_cons.mp h
    unfold Memory.write
    split
    · next hk =>
      refine Memory.wf_cons.mpr ⟨hu, fun d hd => ?_, ih hm⟩
      rcases Memory.mem_write hd with rfl | hd
      · exact hk
      · exact hlt d hd
    · split
      · next hk => exact Memory.wf_put (hk ▸ hlt) hm
      · refine Memory.wf_put (fun d hd => ?_) h
        rcases List.mem_cons.mp hd with rfl | hd
        · simp only; omega
        · have := hlt d hd; omega

/-- The storage after reset has the canonical form. -/
theorem reset_buf_wf : Memory.wf State.reset.buf = true := rfl

/-- A listed cell of a canonical storage reads as its entry. -/
theorem Memory.read_of_mem {m : Memory} (h : Memory.wf m = true) {c : Host.Cell} (hc : c ∈ m) :
    Memory.read m c.1 = c.2 := by
  induction m with
  | nil => cases hc
  | cons d m ih =>
    obtain ⟨k, u⟩ := d
    obtain ⟨-, hlt, hm⟩ := Memory.wf_cons.mp h
    rw [Memory.read_cons]
    rcases List.mem_cons.mp hc with rfl | hc
    · simp
    · rw [if_neg (by have := hlt c hc; omega), ih hm hc]

/-- Canonical storages that read alike are equal data. -/
theorem Memory.ext_read {m n : Memory} (hm : Memory.wf m = true) (hn : Memory.wf n = true)
    (h : ∀ a, Memory.read m a = Memory.read n a) : m = n := by
  induction m generalizing n with
  | nil =>
    cases n with
    | nil => rfl
    | cons d n =>
      obtain ⟨k, u⟩ := d
      obtain ⟨hu, -, -⟩ := Memory.wf_cons.mp hn
      have := h k
      rw [Memory.read_nil, Memory.read_cons, if_pos rfl] at this
      exact absurd this.symm hu
  | cons c m ih =>
    obtain ⟨k, u⟩ := c
    obtain ⟨hu, hlt, hm'⟩ := Memory.wf_cons.mp hm
    cases n with
    | nil =>
      have := h k
      rw [Memory.read_nil, Memory.read_cons, if_pos rfl] at this
      exact absurd this hu
    | cons d n =>
      obtain ⟨j, v⟩ := d
      obtain ⟨hv, hlt', hn'⟩ := Memory.wf_cons.mp hn
      have hkj : k = j := by
        rcases Nat.lt_trichotomy k j with hk | hk | hk
        · have := h k
          rw [Memory.read_cons, if_pos rfl, Memory.read_cons, if_neg (by omega),
            Memory.read_of_all_lt fun c hc => by have := hlt' c hc; omega] at this
          exact absurd this hu
        · exact hk
        · have := h j
          rw [Memory.read_cons, if_neg (by omega), Memory.read_cons, if_pos rfl,
            Memory.read_of_all_lt fun c hc => by have := hlt c hc; omega] at this
          exact absurd this.symm hv
      subst hkj
      have huv : u = v := by have := h k; rwa [Memory.read_cons, if_pos rfl, Memory.read_cons, if_pos rfl] at this
      subst huv
      refine congrArg _ (ih hm' hn' fun a => ?_)
      rcases Nat.lt_trichotomy a k with ha | ha | ha
      · rw [Memory.read_of_all_lt fun c hc => by have := hlt c hc; omega,
          Memory.read_of_all_lt fun c hc => by have := hlt' c hc; omega]
      · subst ha
        rw [Memory.read_of_all_lt hlt, Memory.read_of_all_lt hlt']
      · have := h a
        rwa [Memory.read_cons, if_neg (by omega), Memory.read_cons, if_neg (by omega)] at this

end Sys2Proof.Machine
end

