-- ==== Sys2Proof/Laws/Ops.lean ====
section
/-! SUPPORT. What each shared operation can do, said once; later proofs cite these instead of unfolding the
operation. -/

namespace Sys2Proof.Machine

/-! ### Sequencing -/

@[simp] theorem andThen_next (t : State) (f : State → StepResult) : andThen (.next t) f = f t := rfl
@[simp] theorem andThen_fault (e : Fault) (f : State → StepResult) : andThen (.fault e) f = .fault e := rfl
@[simp] theorem andThen_refused (e : Refusal) (f : State → StepResult) : andThen (.refused e) f = .refused e := rfl

/-- A sequence gives a next state when both halves do. -/
theorem andThen_eq_next {r : StepResult} {f : State → StepResult} {u : State} :
    andThen r f = .next u ↔ ∃ t, r = .next t ∧ f t = .next u := by
  cases r <;> simp

theorem andThen_assoc (r : StepResult) (f g : State → StepResult) :
    andThen (andThen r f) g = andThen r fun t => andThen (f t) g := by
  cases r <;> rfl

/-! ### The ring -/

/-- The successor of an index of the storage (40_ringbuffer_ops.md R94). -/
theorem nextIndex_toNat {a : Byte} {s : State} (hC : s.cfg.capacity ≤ 255) (ha : a.toNat < s.cfg.capacity) :
    (nextIndex a s).toNat = (a.toNat + 1) % s.cfg.capacity := by
  unfold nextIndex
  split
  · next h =>
    have : a.toNat + 1 < 256 := by omega
    rw [Nat.mod_eq_of_lt h]
    bv_omega
  · next h =>
    have : a.toNat + 1 = s.cfg.capacity := by omega
    simp [this]

theorem nextIndex_lt {a : Byte} {s : State} (hC : s.cfg.capacity ≤ 255) (ha : a.toNat < s.cfg.capacity) :
    (nextIndex a s).toNat < s.cfg.capacity := by
  rw [nextIndex_toNat hC ha]
  exact Nat.mod_lt _ (by omega)

/-- Everything PUSH can do (40_ringbuffer_ops.md R90). -/
theorem ringPush_cases (b : Byte) (s : State) :
    (producerCount s = s.cfg.capacity ∧ ringPush b s = .next (s.setAck false)) ∨
    (producerCount s ≠ s.cfg.capacity ∧ s.wr.toNat < s.cfg.capacity ∧
      ringPush b s = .next ((((s.setBuf (Memory.write s.buf s.wr.toNat b)).setRing (nextIndex s.wr s) s.rd
        (s.count + 1)).setLags (lagAfter s.lagC s) s.lagP).setAck true)) ∨
    (producerCount s ≠ s.cfg.capacity ∧ ¬ s.wr.toNat < s.cfg.capacity ∧
      ringPush b s = .fault (.noSuchCell s.wr.toNat)) := by
  unfold ringPush ringAppend
  split
  · simp [*]
  · split <;> simp [*]

/-- Everything POP can do (40_ringbuffer_ops.md R91). -/
theorem ringPop_cases (s : State) :
    (consumerCount s = 0 ∧ ringPop s = .ok (none, s)) ∨
    (consumerCount s ≠ 0 ∧ s.rd.toNat < s.cfg.capacity ∧
      ringPop s = .ok (some (Memory.read s.buf s.rd.toNat), ringDrop s)) ∨
    (consumerCount s ≠ 0 ∧ ¬ s.rd.toNat < s.cfg.capacity ∧ ringPop s = .error (.noSuchCell s.rd.toNat)) := by
  unfold ringPop readCell
  split
  · simp [*]
  · split <;> simp_all

/-- POP moves only the read side of the ring. -/
theorem ringDrop_eq (s : State) :
    ringDrop s = { s with rd := nextIndex s.rd s, count := s.count - 1, lagP := lagAfter s.lagP s } := rfl

theorem ringClear_eq (s : State) :
    ringClear s = { s with wr := 0, rd := 0, count := 0, lagC := 0, lagP := 0 } := rfl

/-- A SYNC step changes the lags only. -/
theorem syncLag_eq (side : LagSide) (s : State) :
    syncLag side s = { s with lagC := (syncLag side s).lagC, lagP := (syncLag side s).lagP } := by
  unfold syncLag
  split <;> rfl

/-- A SYNC step lengthens no lag. -/
theorem syncLag_le (side : LagSide) (s : State) :
    (syncLag side s).lagC ≤ s.lagC ∧ (syncLag side s).lagP ≤ s.lagP := by
  unfold syncLag
  split <;> simp

/-! ### The parser -/

/-- FRAME_STEP changes the parser's registers only. -/
theorem parserStep_eq (b : Byte) (s : State) :
    parserStep b s = { s with
      inFrame := (parserStep b s).inFrame
      idx := (parserStep b s).idx
      x0 := (parserStep b s).x0
      x1 := (parserStep b s).x1
      x2 := (parserStep b s).x2
      newData := (parserStep b s).newData } := by
  unfold parserStep markerTest collectPayload
  split <;> split <;> (try split) <;> rfl

/-- Block 1 stores the byte in the register the index names (41_framer_ops.md R100). -/
theorem collectPayload_cases (b : Byte) (s : State) :
    (s.inFrame = false ∧ collectPayload b s = s) ∨
    (s.inFrame = true ∧ s.idx = 0 ∧ collectPayload b s = { s with x0 := b, inFrame := true, idx := 1 }) ∨
    (s.inFrame = true ∧ s.idx = 1 ∧ collectPayload b s = { s with x1 := b, inFrame := true, idx := 2 }) ∨
    (s.inFrame = true ∧ s.idx = 2 ∧
      collectPayload b s = { s with x2 := b, newData := true, inFrame := false, idx := 0 }) := by
  unfold collectPayload State.setPayload State.setParser State.setNewData
  cases hf : s.inFrame
  · simp
  · have : s.idx = 0 ∨ s.idx = 1 ∨ s.idx = 2 := by
      rcases s.idx with ⟨n, hn⟩
      simp only [Fin.ext_iff]
      simp
      omega
    rcases this with h | h | h <;> simp [h]

/-- The fields FRAME_STEP never touches. -/
@[simp] theorem parserStep_buf (b : Byte) (s : State) : (parserStep b s).buf = s.buf := by rw [parserStep_eq]
@[simp] theorem parserStep_wr (b : Byte) (s : State) : (parserStep b s).wr = s.wr := by rw [parserStep_eq]
@[simp] theorem parserStep_rd (b : Byte) (s : State) : (parserStep b s).rd = s.rd := by rw [parserStep_eq]
@[simp] theorem parserStep_count (b : Byte) (s : State) : (parserStep b s).count = s.count := by rw [parserStep_eq]
@[simp] theorem parserStep_duty (b : Byte) (s : State) : (parserStep b s).duty = s.duty := by rw [parserStep_eq]
@[simp] theorem parserStep_dirA (b : Byte) (s : State) : (parserStep b s).dirA = s.dirA := by rw [parserStep_eq]
@[simp] theorem parserStep_dirB (b : Byte) (s : State) : (parserStep b s).dirB = s.dirB := by rw [parserStep_eq]
@[simp] theorem parserStep_cmp (b : Byte) (s : State) : (parserStep b s).cmp = s.cmp := by rw [parserStep_eq]
@[simp] theorem parserStep_wAck (b : Byte) (s : State) : (parserStep b s).wAck = s.wAck := by rw [parserStep_eq]
@[simp] theorem parserStep_lagC (b : Byte) (s : State) : (parserStep b s).lagC = s.lagC := by rw [parserStep_eq]
@[simp] theorem parserStep_lagP (b : Byte) (s : State) : (parserStep b s).lagP = s.lagP := by rw [parserStep_eq]
@[simp] theorem parserStep_phase (b : Byte) (s : State) : (parserStep b s).phase = s.phase := by rw [parserStep_eq]
@[simp] theorem parserStep_cfg (b : Byte) (s : State) : (parserStep b s).cfg = s.cfg := by rw [parserStep_eq]
@[simp] theorem parserStep_inputs (b : Byte) (s : State) : (parserStep b s).inputs = s.inputs := by rw [parserStep_eq]
@[simp] theorem parserStep_result (b : Byte) (s : State) : (parserStep b s).result = s.result := by rw [parserStep_eq]

/-- Everything a pass of PARSE can do when the exit condition does not hold (41_framer_ops.md R102). -/
theorem parsePass_cases {s : State} (h : parseDone s = false) :
    (s.rd.toNat < s.cfg.capacity ∧
      parsePass s = .next (parserStep (Memory.read s.buf s.rd.toNat) (ringDrop s))) ∨
    (¬ s.rd.toNat < s.cfg.capacity ∧ parsePass s = .fault (.noSuchCell s.rd.toNat)) := by
  have hc : consumerCount s ≠ 0 := by
    intro h0
    simp [parseDone, h0] at h
  rcases ringPop_cases s with ⟨h0, -⟩ | ⟨-, hr, hp⟩ | ⟨-, hr, hp⟩
  · exact absurd h0 hc
  · exact .inl ⟨hr, by simp [parsePass, hp]⟩
  · exact .inr ⟨hr, by simp [parsePass, hp]⟩

/-- A pass of PARSE takes one byte out of what the consumer sees. -/
theorem consumerCount_ringDrop {s : State} (h : consumerCount s ≠ 0) :
    consumerCount (ringDrop s) = consumerCount s - 1 := by
  have hc : 1 ≤ s.count.toNat := by
    unfold consumerCount at h
    split at h <;> omega
  have : (s.count - 1).toNat = s.count.toNat - 1 := by
    bv_omega
  unfold consumerCount at *
  rw [ringDrop_eq]
  split <;> simp_all; omega

@[simp] theorem consumerCount_parserStep (b : Byte) (s : State) :
    consumerCount (parserStep b s) = consumerCount s := by
  unfold consumerCount
  simp

/-! ### The motor -/

/-- A command writes the motor registers only (42_dispatch_commands.md R110). -/
theorem runCommand_eq (c : MotorCommand) (s : State) :
    runCommand c s = { s with
      dirA := (runCommand c s).dirA
      dirB := (runCommand c s).dirB
      duty := (runCommand c s).duty } := by
  cases c <;> rfl

/-- Pause (60_exceptions.md R149). -/
theorem raisePause_eq (c : PauseCause) (s : State) :
    raisePause c s = { s with dirA := false, dirB := true, duty := 0 } := rfl

/-- What a command with a direction does: the move for a magnitude 0..100, Pause for any other. -/
theorem runCommand_commandOf (d : Direction) (m : Byte) (s : State) :
    runCommand (commandOf d m) s =
      if m.toNat ≤ 100 then { s with dirA := d.pinA, dirB := d.pinB, duty := m }
      else { s with dirA := false, dirB := true, duty := 0 } := by
  unfold commandOf dutyOperand Config.dutyMax
  split <;> split at * <;> simp_all [runCommand, State.setMotor, raisePause]

/-- The tail of CYCLE writes the motor registers and `new_data` only (44_control_cycle.md R135). -/
theorem cycleTail_eq (s : State) :
    cycleTail s = { s with
      dirA := (cycleTail s).dirA
      dirB := (cycleTail s).dirB
      duty := (cycleTail s).duty
      newData := false } := by
  unfold cycleTail dispatchFrame
  split
  · split
    · rw [runCommand_eq]; rfl
    · rfl
  · next h =>
    have : s.newData = false := by simpa using h
    rw [← this]

end Sys2Proof.Machine
end

