-- ==== Sys2Proof/Laws/Context.lean ====
section
/-! SUPPORT. The shared operations do not look at the context of the run: with another progress of the CYCLE, schedule and
returned value they do the same (10_state.md R20; log entry 28). -/

namespace Sys2Proof.Machine

/-- The same machine in another context, under the same parameters. -/
def State.inContext (p : CyclePhase) (l : List Input) (r : OpResult) (s : State) : State :=
  { s with phase := p, inputs := l, result := r }

/-- States with equal registers, lags and parameters differ by their context only. -/
theorem State.eq_inContext {s t : State} (hr : s.toRegisters = t.toRegisters) (hl : s.toLags = t.toLags)
    (hc : s.cfg = t.cfg) : t = s.inContext t.phase t.inputs t.result := by
  obtain ⟨_, _, _, _, _, _⟩ := s
  obtain ⟨_, _, _, _, _, _⟩ := t
  simp_all [State.inContext]

section
variable (p : CyclePhase) (l : List Input) (r : OpResult) (s : State)

@[simp] theorem State.inContext_toRegisters : (s.inContext p l r).toRegisters = s.toRegisters := rfl
@[simp] theorem State.inContext_toLags : (s.inContext p l r).toLags = s.toLags := rfl
@[simp] theorem State.inContext_cfg : (s.inContext p l r).cfg = s.cfg := rfl
@[simp] theorem State.inContext_phase : (s.inContext p l r).phase = p := rfl
@[simp] theorem State.inContext_inputs : (s.inContext p l r).inputs = l := rfl
@[simp] theorem State.inContext_result : (s.inContext p l r).result = r := rfl

/-- The same outcome, its state in another context. -/
def inContextOf (o : StepResult) : StepResult := andThen o fun t => .next (t.inContext p l r)

/-! ### The ring -/

theorem consumerCount_inContext : consumerCount (s.inContext p l r) = consumerCount s := rfl

theorem producerCount_inContext : producerCount (s.inContext p l r) = producerCount s := rfl

theorem ringDrop_inContext : ringDrop (s.inContext p l r) = (ringDrop s).inContext p l r := rfl

/-- PUSH does not look at the context. -/
theorem ringPush_inContext (b : Byte) :
    ringPush b (s.inContext p l r) = inContextOf p l r (ringPush b s) := by
  by_cases full : producerCount s = s.cfg.capacity
  · rw [ringPush, ringPush, producerCount_inContext, State.inContext_cfg, if_pos full, if_pos full]
    rfl
  · by_cases cell : s.wr.toNat < s.cfg.capacity
    all_goals
      rw [ringPush, ringPush, producerCount_inContext, State.inContext_cfg, if_neg full, if_neg full]
      simp only [ringAppend, State.inContext_cfg, State.inContext_toRegisters, cell, if_true, if_false]
      rfl

/-- POP does not look at the context. -/
theorem ringPop_inContext :
    ringPop (s.inContext p l r) = (ringPop s).map fun a => (a.1, a.2.inContext p l r) := by
  by_cases empty : consumerCount s = 0
  · rw [ringPop, ringPop, consumerCount_inContext, if_pos empty, if_pos empty]
    rfl
  · rw [ringPop, ringPop, consumerCount_inContext, if_neg empty, if_neg empty,
      show readCell (s.inContext p l r).rd (s.inContext p l r) = readCell s.rd s from rfl]
    cases readCell s.rd s <;> rfl

/-! ### The parser -/

theorem collectPayload_inContext (b : Byte) :
    collectPayload b (s.inContext p l r) = (collectPayload b s).inContext p l r := by
  rw [collectPayload, collectPayload, State.inContext_toRegisters, apply_ite (State.inContext p l r),
    apply_ite (State.inContext p l r)]
  rfl

/-- FRAME_STEP does not look at the context. -/
theorem parserStep_inContext (b : Byte) :
    parserStep b (s.inContext p l r) = (parserStep b s).inContext p l r := by
  unfold parserStep
  rw [collectPayload_inContext]
  unfold markerTest
  split <;> rfl

theorem parseDone_inContext : parseDone (s.inContext p l r) = parseDone s := rfl

theorem parsePass_inContext : parsePass (s.inContext p l r) = inContextOf p l r (parsePass s) := by
  unfold parsePass
  rw [ringPop_inContext]
  cases ringPop s with
  | error e => rfl
  | ok a =>
    obtain ⟨b, t⟩ := a
    cases b with
    | none => rfl
    | some b => exact congrArg Host.Outcome.next (parserStep_inContext p l r t b)

/-- PARSE does not look at the context. -/
theorem parseLoop_inContext (n : Nat) :
    parseLoop n (s.inContext p l r) = inContextOf p l r (parseLoop n s) := by
  induction n generalizing s with
  | zero => rfl
  | succ n ih =>
    simp only [parseLoop, parseDone_inContext, parsePass_inContext]
    split
    · rfl
    · cases parsePass s with
      | next t => exact ih t
      | fault e => rfl
      | refused e => rfl

/-! ### The motor -/

theorem runCommand_inContext (c : MotorCommand) :
    runCommand c (s.inContext p l r) = (runCommand c s).inContext p l r := by
  cases c <;> rfl

theorem dispatchFrame_inContext : dispatchFrame (s.inContext p l r) = (dispatchFrame s).inContext p l r :=
  runCommand_inContext p l r s _

/-- The tail of CYCLE does not look at the context. -/
theorem cycleTail_inContext : cycleTail (s.inContext p l r) = (cycleTail s).inContext p l r := by
  rw [cycleTail, cycleTail, dispatchFrame_inContext, show checksumValid (s.inContext p l r) = checksumValid s from rfl,
    State.inContext_toRegisters, apply_ite (State.inContext p l r)]
  cases checksumValid s <;> rfl

end

end Sys2Proof.Machine
end

