-- ==== Sys2Proof/Laws/Decode.lean ====
section
/-! SUPPORT. The tests of the decoder as propositions, and everything the payload decoder can answer. -/

namespace Sys2Proof

theorem isMoveOpcode_iff {op : Byte} : isMoveOpcode op = true ↔ op = 1 ∨ op = 2 ∨ op = 3 ∨ op = 4 := by
  unfold isMoveOpcode
  simp only [Bool.or_eq_true, beq_iff_eq, or_assoc]

theorem isMoveOpcode_false_iff {op : Byte} :
    isMoveOpcode op = false ↔ op ≠ 1 ∧ op ≠ 2 ∧ op ≠ 3 ∧ op ≠ 4 := by
  rw [← Bool.not_eq_true, isMoveOpcode_iff]
  simp only [not_or, ne_eq]

theorem magnitudeInRange_iff {m : Byte} : magnitudeInRange m = true ↔ m.toNat ≤ 100 := by
  unfold magnitudeInRange Config.dutyMax
  exact decide_eq_true_iff

theorem magnitudeInRange_false_iff {m : Byte} : magnitudeInRange m = false ↔ 100 < m.toNat := by
  rw [← Bool.not_eq_true, magnitudeInRange_iff, Nat.not_le]

/-- Everything the payload decoder can answer, with the tests that select it (30_encoding.md R79). -/
theorem decodePayload_cases (op m c : Byte) :
    (op ^^^ m ≠ c ∧ decodePayload op m c = .pauseChecksumFail op m c) ∨
    (op ^^^ m = c ∧ isMoveOpcode op = false ∧ op = 0 ∧ m = 0 ∧ decodePayload op m c = .pause) ∨
    (op ^^^ m = c ∧ isMoveOpcode op = false ∧ ¬ (op = 0 ∧ m = 0) ∧ decodePayload op m c = .pauseBadOpcode op m) ∨
    (op ^^^ m = c ∧ isMoveOpcode op = true ∧ 100 < m.toNat ∧ decodePayload op m c = .pauseBadMagnitude op m) ∨
    (op ^^^ m = c ∧ m.toNat ≤ 100 ∧
      ((op = 1 ∧ decodePayload op m c = .forward m) ∨ (op = 2 ∧ decodePayload op m c = .right m) ∨
       (op = 3 ∧ decodePayload op m c = .backward m) ∨ (op = 4 ∧ decodePayload op m c = .left m))) := by
  by_cases hc : op ^^^ m = c
  · cases ho : isMoveOpcode op
    · by_cases h0 : op = 0 ∧ m = 0
      · exact .inr (.inl ⟨hc, rfl, h0.1, h0.2, by
          unfold decodePayload
          rw [if_neg (not_not.mpr hc), if_pos ho, if_pos h0]⟩)
      · exact .inr (.inr (.inl ⟨hc, rfl, h0, by
          unfold decodePayload
          rw [if_neg (not_not.mpr hc), if_pos ho, if_neg h0]⟩))
    · rcases Nat.lt_or_ge 100 m.toNat with hm | hm
      · exact .inr (.inr (.inr (.inl ⟨hc, rfl, hm, by
          unfold decodePayload
          rw [if_neg (not_not.mpr hc), if_neg (by simp [ho]), if_pos (magnitudeInRange_false_iff.mpr hm)]⟩)))
      · refine .inr (.inr (.inr (.inr ⟨hc, hm, ?_⟩)))
        have hm' := magnitudeInRange_iff.mpr hm
        have hd : decodePayload op m c = decodeMove op m := by
          unfold decodePayload
          rw [if_neg (not_not.mpr hc), if_neg (by simp [ho]), if_neg (by simp [hm'])]
        rw [hd]
        rcases isMoveOpcode_iff.mp ho with rfl | rfl | rfl | rfl <;> simp [decodeMove]
  · exact .inl ⟨hc, by simp [decodePayload, hc]⟩

end Sys2Proof
end

