-- ==== Sys2Proof/Laws/PerInstr.lean ====
section
/-! SUPPORT. Facts about every instruction as syntax, one lemma per constructor. -/

namespace Sys2Proof.Laws

/-- The frame word of four bytes, `F[31:0] = {F0, F1, F2, F3}` (30_encoding.md R71). -/
def frameWord : List Byte → Nat
  | [f0, f1, f2, f3] => f0.toNat * 2 ^ 24 + f1.toNat * 2 ^ 16 + f2.toNat * 2 ^ 8 + f3.toNat
  | _ => 0

namespace TableRow

/-- The match and mask of an instruction's row of spec/opcode_table.json that its bytes meet, the row's constraint being
`wellFormed`; an internal operation has no bytes.  The strobe rows match the vector alone. -/
def Statement (i : Instr) : Prop :=
  match i with
  | .forward _ => ∀ bytes, encode i = some bytes → frameWord bytes / 2 ^ 16 = 0xFF01
  | .right _ => ∀ bytes, encode i = some bytes → frameWord bytes / 2 ^ 16 = 0xFF02
  | .backward _ => ∀ bytes, encode i = some bytes → frameWord bytes / 2 ^ 16 = 0xFF03
  | .left _ => ∀ bytes, encode i = some bytes → frameWord bytes / 2 ^ 16 = 0xFF04
  | .pause => ∀ bytes, encode i = some bytes → frameWord bytes = 0xFF000000
  | .pauseChecksumFail _ _ _ => ∀ bytes, encode i = some bytes → frameWord bytes / 2 ^ 24 = 0xFF
  | .pauseBadOpcode _ _ => ∀ bytes, encode i = some bytes → frameWord bytes / 2 ^ 24 = 0xFF
  | .pauseBadMagnitude _ _ => ∀ bytes, encode i = some bytes → frameWord bytes / 2 ^ 24 = 0xFF
  | .reset => encode i = some [0b10000, 0]
  | .push b => encode i = some [0b01000, b]
  | .cycle => encode i = some [0b00100, 0]
  | .clear => encode i = some [0b00010, 0]
  | .sample => encode i = some [0b00001, 0]
  | .available => encode i = none
  | .pop => encode i = none
  | .frameStep _ => encode i = none
  | .parse => encode i = none
  | .validate => encode i = none
  | .dispatch => encode i = none

/-- The upper half of a frame word is the marker and the opcode. -/
theorem frameWord_upper (op m c : Byte) :
    frameWord [Config.startMarker, op, m, c] / 2 ^ 16 = 0xFF00 + op.toNat := by
  have := m.isLt
  have := c.isLt
  simp only [frameWord, show Config.startMarker.toNat = 255 from rfl]
  omega

/-- The top byte of a frame word is the marker. -/
theorem frameWord_marker (op m c : Byte) : frameWord [Config.startMarker, op, m, c] / 2 ^ 24 = 0xFF := by
  have := op.isLt
  have := m.isLt
  have := c.isLt
  simp only [frameWord, show Config.startMarker.toNat = 255 from rfl]
  omega

theorem forward (m : Byte) : Statement (.forward m) := by
  intro bytes h
  cases h
  exact frameWord_upper 1 m _

theorem right (m : Byte) : Statement (.right m) := by
  intro bytes h
  cases h
  exact frameWord_upper 2 m _

theorem backward (m : Byte) : Statement (.backward m) := by
  intro bytes h
  cases h
  exact frameWord_upper 3 m _

theorem left (m : Byte) : Statement (.left m) := by
  intro bytes h
  cases h
  exact frameWord_upper 4 m _

theorem pause : Statement .pause := by
  intro bytes h
  cases h
  rfl

theorem pauseChecksumFail (op m c : Byte) : Statement (.pauseChecksumFail op m c) := by
  intro bytes h
  cases h
  exact frameWord_marker op m c

theorem pauseBadOpcode (op m : Byte) : Statement (.pauseBadOpcode op m) := by
  intro bytes h
  cases h
  exact frameWord_marker op m _

theorem pauseBadMagnitude (op m : Byte) : Statement (.pauseBadMagnitude op m) := by
  intro bytes h
  cases h
  exact frameWord_marker op m _

theorem reset : Statement .reset := rfl
theorem push (b : Byte) : Statement (.push b) := rfl
theorem cycle : Statement .cycle := rfl
theorem clear : Statement .clear := rfl
theorem sample : Statement .sample := rfl
theorem available : Statement .available := rfl
theorem pop : Statement .pop := rfl
theorem frameStep (b : Byte) : Statement (.frameStep b) := rfl
theorem parse : Statement .parse := rfl
theorem validate : Statement .validate := rfl
theorem dispatch : Statement .dispatch := rfl

end TableRow

end Sys2Proof.Laws
end

