-- ==== Sys2Proof/Laws/Run.lean ====
section
/-! SUPPORT. What the loop of PARSE, the strobe decoder, the turns of the schedule and runs can do, said once. -/

namespace Sys2Proof.Machine

/-! ### PARSE -/

/-- A pass of PARSE changes the parser, `rd`, `count` and `lag_p` only (41_framer_ops.md R102). -/
theorem parsePass_frame {s t : State} (h : parsePass s = .next t) :
    t = { s with
      rd := t.rd, count := t.count, lagP := t.lagP
      inFrame := t.inFrame, idx := t.idx, x0 := t.x0, x1 := t.x1, x2 := t.x2, newData := t.newData } := by
  unfold parsePass at h
  rcases ringPop_cases s with ⟨-, hp⟩ | ⟨-, -, hp⟩ | ⟨-, -, hp⟩ <;> rw [hp] at h
  · obtain rfl := Host.Outcome.next.inj h
    rfl
  · obtain rfl := Host.Outcome.next.inj h
    rw [parserStep_eq, ringDrop_eq]
  · cases h

/-- So does the whole loop. -/
theorem parseLoop_frame {n : Nat} {s t : State} (h : parseLoop n s = .next t) :
    t = { s with
      rd := t.rd, count := t.count, lagP := t.lagP
      inFrame := t.inFrame, idx := t.idx, x0 := t.x0, x1 := t.x1, x2 := t.x2, newData := t.newData } := by
  induction n generalizing s with
  | zero =>
    obtain rfl := Host.Outcome.next.inj h
    rfl
  | succ n ih =>
    unfold parseLoop at h
    split at h
    · obtain rfl := Host.Outcome.next.inj h
      rfl
    · obtain ⟨u, hu, ht⟩ := andThen_eq_next.mp h
      rw [ih ht, parsePass_frame hu]

/-! ### The motor command -/

/-- A payload names a Move only with a magnitude 0..100 (42_dispatch_commands.md R110). -/
theorem motorCommand_speed {op m : Byte} {d : Direction} {v : Byte} (h : motorCommand op m = .move d v) :
    v = m ∧ m.toNat ≤ 100 := by
  unfold motorCommand at h
  split at h
  · unfold commandOf dutyOperand at h
    split at h
    · next hm =>
      split at hm
      · next hle => cases hm; cases h; exact ⟨rfl, hle⟩
      · cases hm
    · cases h
  · cases h

/-- A command that names no speed above 100 leaves the duty within its range (10_state.md R33). -/
theorem runCommand_duty_le {c : MotorCommand} (s : State) (h : ∀ d v, c = .move d v → v.toNat ≤ 100) :
    (runCommand c s).duty.toNat ≤ 100 := by
  cases c with
  | move d v => exact h d v rfl
  | invalid => simp [runCommand, raisePause]

/-! ### Strobes -/

/-- Everything the strobe decoder can answer (30_encoding.md R83, 60_exceptions.md R155). -/
theorem decodeStrobes_cases (order : List Strobe) (S : BitVec 5) (d : Byte) :
    (Strobe.asserted S .rst = true ∧ decodeStrobes order S d = some (.reset, 0)) ∨
    (∃ l, l ≠ .rst ∧ Strobe.asserted S l = true ∧
      decodeStrobes order S d = some (l.operation d, S &&& ~~~ l.mask)) ∨
    ((∀ l, Strobe.asserted S l = false) ∧ decodeStrobes order S d = none) := by
  unfold decodeStrobes
  cases hr : Strobe.asserted S .rst
  · refine .inr ?_
    simp only [Bool.false_eq_true, if_false]
    split
    · next hf =>
      refine .inr ⟨fun l => ?_, rfl⟩
      rw [List.find?_eq_none] at hf
      cases l with
      | rst => exact hr
      | _ => simpa using hf _ (List.mem_append_right order (by simp [Strobe.usualOrder]))
    · next l hf =>
      have hl := List.find?_some hf
      refine .inl ⟨l, ?_, hl, rfl⟩
      rintro rfl
      exact absurd hl (by simp [hr])
  · exact .inl ⟨rfl, rfl⟩

/-! ### Turns -/

/-- A step under accepted parameters is the turn the schedule names. -/
theorem step_of_supported {s : State} (h : s.cfg.Supported) : step s = takeTurn s := if_pos h

/-- The tail of an atomic CYCLE is the command in `x`, then the end of the CYCLE (44_control_cycle.md R135). -/
theorem tailTurn_of_frame {s : State} (hn : s.newData = true) (ha : s.cfg.dispatchAtomic = true) :
    tailTurn s = andThen (exec (decodePayload s.x0 s.x1 s.x2) s) fun t => .next (finishCycle t) := by
  unfold tailTurn
  simp only [hn, ha, if_true]

/-- A tail without a completed frame only ends the CYCLE. -/
theorem tailTurn_of_none {s : State} (hn : s.newData = false) : tailTurn s = .next (s.setPhase .idle) := by
  unfold tailTurn
  simp [hn]

/-- One of the separate motor writes (93_implementation_defined.md U19). -/
theorem writeTurn_of_get {s : State} {k : Nat} {a b : Bool} {d : Byte} {left : List MotorReg} {r : MotorReg}
    (h : left[k % left.length]? = some r) :
    writeTurn k a b d left s =
      if left.length ≤ 1 then finishCycle (writeMotor a b d r s)
      else (writeMotor a b d r s).setPhase (.writing a b d (left.eraseIdx (k % left.length))) := by
  unfold writeTurn
  rw [h]

/-! ### Runs -/

/-- A run goes on from the state a step gives. -/
theorem core_run_succ {n : Nat} {s t : State} (h : step s = .next t) : core.run (n + 1) s = core.run n t := by
  have hc : core.step s = .next t := h
  simp only [Host.Core.run, hc]

@[simp] theorem core_run_zero (s : State) : core.run 0 s = .next s := rfl

end Sys2Proof.Machine
end

