-- ==== Sys2Proof/Tests/Slice0.lean ====
section
/-! SUPPORT. The model's own tests: ill-formed terms that WellFormed refuses, words written out from the spec's
encodings, one step of each instruction against the spec's examples, and a witness for the hypotheses of every
statement. -/

namespace Sys2Proof.Tests

open Sys2Proof.Machine

/-! ### WellFormed refuses -/

theorem test_forward_101_is_ill_formed : wellFormed (.forward 101) = false := by decide
theorem test_right_101_is_ill_formed : wellFormed (.right 101) = false := by decide
theorem test_backward_255_is_ill_formed : wellFormed (.backward 255) = false := by decide
theorem test_left_128_is_ill_formed : wellFormed (.left 128) = false := by decide
theorem test_matching_checksum_is_no_checksum_fail : wellFormed (.pauseChecksumFail 1 2 3) = false := by decide
theorem test_move_opcode_is_no_bad_opcode : wellFormed (.pauseBadOpcode 4 10) = false := by decide
theorem test_canonical_pause_is_no_bad_opcode_term : wellFormed (.pauseBadOpcode 0 0) = false := by decide
theorem test_opcode_5_is_no_bad_magnitude : wellFormed (.pauseBadMagnitude 5 200) = false := by decide
theorem test_magnitude_100_is_no_bad_magnitude : wellFormed (.pauseBadMagnitude 1 100) = false := by decide

/-! ### Words from the spec's encodings (30_encoding.md R70, R71, R83; 95_test_vectors.md D8, S6, P4) -/

theorem test_decode_forward : decodeTableWord 32 0b11111111_00000001_00110010_00110011 = some (.forward 50) := by decide
theorem test_decode_right : decodeTableWord 32 0b11111111_00000010_00101000_00101010 = some (.right 40) := by decide
theorem test_decode_backward : decodeTableWord 32 0b11111111_00000011_01100100_01100111 = some (.backward 100) := by decide
theorem test_decode_left : decodeTableWord 32 0b11111111_00000100_00100001_00100101 = some (.left 33) := by decide
theorem test_decode_pause : decodeTableWord 32 0b11111111_00000000_00000000_00000000 = some .pause := by decide
theorem test_decode_checksum_fail :
    decodeTableWord 32 0b11111111_00000001_00000010_00000100 = some (.pauseChecksumFail 1 2 4) := by decide
theorem test_decode_bad_opcode :
    decodeTableWord 32 0b11111111_00001001_00010100_00011101 = some (.pauseBadOpcode 9 0x14) := by decide
theorem test_decode_bad_magnitude :
    decodeTableWord 32 0b11111111_00000001_01100101_01100100 = some (.pauseBadMagnitude 1 101) := by decide
theorem test_decode_reset : decodeTableWord 8 0b10000 = some .reset := by decide
theorem test_decode_push : decodeTableWord 16 0b01000001_00001000 = some (.push 0x41) := by decide
theorem test_decode_cycle : decodeTableWord 8 0b00100 = some .cycle := by decide
theorem test_decode_clear : decodeTableWord 8 0b00010 = some .clear := by decide
theorem test_decode_sample : decodeTableWord 8 0b00001 = some .sample := by decide

/-- `rst` overrides every other strobe (30_encoding.md R83). -/
theorem test_decode_reset_wins : decodeTableWord 16 0b01000001_00011111 = some .reset := by decide

/-- The six operations without an encoding (the rows of spec/opcode_table.json without match and mask). -/
theorem test_internal_operations_have_no_encoding :
    [Instr.available, .pop, .frameStep 1, .parse, .validate, .dispatch].map encode = List.replicate 6 none := by decide

/-- Bytes that are no instruction are refused by name. -/
theorem test_decode_refusals :
    decodeTableWord 32 0x00010203 = none ∧ decodeTableWord 8 0 = none ∧ decodeTableWord 8 0x20 = none := by decide

/-! ### Helpers -/

/-- The next state, if there is one. -/
def after (r : StepResult) : Option State :=
  match r with
  | .next t => some t
  | .fault _ => none
  | .refused _ => none

/-- The standard parameters with another capacity. -/
def cap (C : Nat) : Config := { Config.standard with capacity := C }

/-- The same with the Lagged view. -/
def capLagged (C : Nat) : Config := { cap C with cdcView := .lagged }

/-- A machine whose ring holds the bytes, the oldest in cell 0. -/
def holding (c : Config) (bytes : List Byte) : State :=
  { State.resetWith c with
    buf := bytes.zipIdx.foldr (fun p m => Memory.put p.2 p.1 m) []
    wr := BitVec.ofNat 8 (bytes.length % c.capacity)
    count := BitVec.ofNat 8 bytes.length }

/-- A check of the invariants that evaluates. -/
def invCheck (s : State) : Bool :=
  decide s.cfg.Supported &&
  (decide (s.count.toNat ≤ s.cfg.capacity) && decide (s.wr.toNat < s.cfg.capacity) &&
   decide (s.rd.toNat < s.cfg.capacity) &&
   decide (s.wr.toNat = (s.rd.toNat + s.count.toNat) % s.cfg.capacity)) &&
  (Memory.wf s.buf && s.buf.all fun c => decide (c.1 < s.cfg.capacity)) &&
  (decide (s.inFrame = false → s.idx = 0) && decide (s.newData = true → s.idx = 0) &&
   decide (s.phase = .idle → s.newData = false)) &&
  (decide (s.duty.toNat ≤ Config.dutyMax) && s.phase.target.all (fun d => decide (d.toNat ≤ Config.dutyMax)) &&
   decide (s.cmp ≤ s.cfg.maxCompare)) &&
  (decide (s.lagC ≤ s.count.toNat) && decide (s.lagP ≤ s.cfg.capacity - s.count.toNat) &&
   decide (s.cfg.cdcView = .immediate → s.lagC = 0 ∧ s.lagP = 0))

theorem inv_of_check {s : State} (h : invCheck s = true) : s.Inv := by
  simp only [invCheck, Bool.and_eq_true, decide_eq_true_eq, List.all_eq_true] at h
  obtain ⟨⟨⟨⟨⟨h1, ⟨⟨h2, h3⟩, h4⟩, h5⟩, h6, h7⟩, ⟨h8, h9⟩, h10⟩, ⟨h11, h12⟩, h13⟩, ⟨h14, h15⟩, h16⟩ := h
  refine ⟨h1, ⟨h2, h3, h4, h5⟩, ⟨h6, h7⟩, ⟨h8, h9, h10⟩, ⟨h11, fun d hd => ?_, h13⟩, ⟨h14, h15, h16⟩⟩
  rw [hd] at h12
  simpa using h12

/-! ### One step of each instruction, against the spec's examples -/

/-- 42_dispatch_commands.md R111 to R114, the examples. -/
theorem test_forward : (after (exec (.forward 2) .reset)).map State.motor = some (false, false, 2) := by decide
theorem test_right : (after (exec (.right 50) .reset)).map State.motor = some (false, true, 50) := by decide
theorem test_backward : (after (exec (.backward 75) .reset)).map State.motor = some (true, true, 75) := by decide
theorem test_left : (after (exec (.left 10) .reset)).map State.motor = some (true, false, 10) := by decide

/-- A moving machine. -/
def moving : State := { State.reset with dirA := true, dirB := false, duty := 33, cmp := 84 }

/-- 60_exceptions.md R149: pins 01, duty 0, `cmp` kept. -/
theorem test_pause : after (exec .pause moving) = some { moving with dirA := false, dirB := true, duty := 0 } := by decide
theorem test_pause_checksum_fail :
    (after (exec (.pauseChecksumFail 1 2 4) moving)).map State.motor = some (false, true, 0) := by decide
theorem test_pause_bad_opcode :
    (after (exec (.pauseBadOpcode 9 0x14) moving)).map State.motor = some (false, true, 0) := by decide
theorem test_pause_bad_magnitude :
    (after (exec (.pauseBadMagnitude 1 101) moving)).map State.motor = some (false, true, 0) := by decide

/-- 95_test_vectors.md D7. -/
theorem test_reset :
    let s : State := { State.reset with
      wr := 7, rd := 4, count := 3, inFrame := true, idx := 2, x0 := 1, x1 := 2
      dirA := true, dirB := true, duty := 75, cmp := 191 }
    after (exec .reset s) = some { State.reset with x0 := 1, x1 := 2 } := by decide

/-- 40_ringbuffer_ops.md R90, the example: the write index wraps. -/
theorem test_push_wraps :
    (after (exec (.push 0xFF) { State.resetWith (cap 4) with wr := 3, rd := 3 })).map
      (fun t => (Memory.read t.buf 3, t.wr, t.count, t.wAck)) = some (0xFF, 0, 1, true) := by decide

/-- R90, the corner case of a full buffer. -/
theorem test_push_full :
    after (exec (.push 0xAA) { holding (cap 4) [1, 2, 3, 4] with wAck := true }) =
      some (holding (cap 4) [1, 2, 3, 4]) := by decide

/-- R91, the example: the read index wraps. -/
theorem test_pop_wraps :
    (after (exec .pop { holding (cap 4) [0x11, 0x22, 0x33, 0x44] with rd := 3, wr := 1, count := 2 })).map
      (fun t => (t.result, t.rd, t.count)) = some (.popped (some 0x44), 0, 1) := by decide

/-- R91: the empty buffer answers None. -/
theorem test_pop_empty : (after (exec .pop .reset)).map (·.result) = some (.popped none) := by decide

/-- R92, the example. -/
theorem test_available :
    (after (exec .available (holding (cap 8) [0xFF, 1, 2, 3]))).map (·.result) = some (.unread 4) := by decide

/-- R93, the example. -/
theorem test_clear :
    (after (exec .clear { State.resetWith (cap 4) with wr := 2, rd := 3, count := 3 })).map
      (fun t => (t.wr, t.rd, t.count)) = some (0, 0, 0) := by decide

/-- 41_framer_ops.md R100, the example: the byte that completes a frame. -/
theorem test_frame_step_completes :
    (after (exec (.frameStep 3) { State.reset with inFrame := true, idx := 2, x0 := 1, x1 := 2 })).map State.parser =
      some (false, 0, 1, 2, 3, true) := by decide

/-- R100, corner case (d): a marker as the third payload byte. -/
theorem test_frame_step_rearms :
    (after (exec (.frameStep 0xFF) { State.reset with inFrame := true, idx := 2, x0 := 1, x1 := 2 })).map State.parser =
      some (true, 0, 1, 2, 0xFF, true) := by decide

/-- R102, the example. -/
theorem test_parse :
    (after (exec .parse (holding (cap 8) [0x01, 0xFF, 0x01, 0x02, 0x03, 0xFF, 0x02]))).map
      (fun t => (t.x0, t.x1, t.x2, t.newData, t.contents)) = some (1, 2, 3, true, [0xFF, 0x02]) := by decide

/-- R103, the examples. -/
theorem test_validate :
    (after (exec .validate { State.reset with x0 := 1, x1 := 2, x2 := 3 })).map (·.result) = some (.valid true) := by decide
theorem test_validate_fails :
    (after (exec .validate { State.reset with x0 := 1, x1 := 2, x2 := 4 })).map (·.result) = some (.valid false) := by decide

/-- 42_dispatch_commands.md R110: the example, and corner case (c). -/
theorem test_dispatch :
    (after (exec .dispatch { moving with x0 := 1, x1 := 2, x2 := 3 })).map State.motor = some (false, false, 2) := by decide
theorem test_dispatch_101 :
    (after (exec .dispatch { moving with x0 := 1, x1 := 0x65 })).map State.motor = some (false, true, 0) := by decide

/-- 43_pwm_output.md R125, the example. -/
theorem test_sample : (after (exec .sample { State.reset with duty := 50 })).map (·.cmp) = some 128 := by decide

/-- 44_control_cycle.md R135, the example. -/
theorem test_cycle :
    (after (exec .cycle (holding (cap 8) [0xFF, 1, 2, 3]))).map (fun t => (t.motor, t.count, t.newData)) =
      some ((false, false, 2), 0, false) := by decide

/-- 95_test_vectors.md P2: the torn frame `FF 02 FF 04` pauses. -/
theorem test_cycle_torn_frame :
    (after (exec .cycle { holding (cap 6) [0xFF, 0x02, 0xFF, 0x04, 0x0A, 0x0E] with duty := 10, dirB := false })).map
      (fun t => (t.motor, t.inFrame, t.x1, t.count)) = some ((false, true, 0), false, 0xFF, 2) := by decide

/-! ### Placed words -/

theorem test_placed_frame_runs :
    (after (step (State.withFetchWord .reset 32 0xFF034B48))).map State.motor = some (true, true, 75) := by decide

theorem test_placed_strobe_runs :
    (after (step (State.withFetchWord .reset 16 0x4108))).map (fun t => (Memory.read t.buf 0, t.count)) =
      some (0x41, 1) := by decide

/-! ### Witnesses: states and operands that meet the hypotheses of each statement, at the ends of their ranges -/

/-- The ring of capacity 4 full. -/
def full : State := holding (cap 4) [1, 2, 3, 4]

/-- The ring of capacity 4 with one cell free, its write index at the last cell. -/
def oneFree : State := holding (cap 4) [1, 2, 3]

/-- One frame waiting in the ring. -/
def frameWaiting : State := holding (cap 8) [0xFF, 1, 2, 3]

/-- The Lagged ring of capacity 4 full, nothing visible to the consumer (95_test_vectors.md D9). -/
def laggedFull : State := { holding (capLagged 4) [0xFF, 1, 2, 3] with lagC := 4 }

/-- The Lagged ring with two cells free that the producer cannot see yet (95_test_vectors.md D9). -/
def laggedHalf : State :=
  { holding (capLagged 4) [0xFF, 1, 2, 3] with rd := 2, count := 2, lagC := 1, lagP := 2, inFrame := true, idx := 1, x0 := 1 }

/-- A completed frame at the tail of a CYCLE. -/
def atTail : State :=
  { State.reset with x0 := 1, x1 := 100, x2 := 0x65, newData := true, phase := .tail, inputs := [.consumerTurn 0] }

theorem inv_full : full.Inv := inv_of_check (by decide)
theorem inv_oneFree : oneFree.Inv := inv_of_check (by decide)
theorem inv_frameWaiting : frameWaiting.Inv := inv_of_check (by decide)
theorem inv_laggedFull : laggedFull.Inv := inv_of_check (by decide)
theorem inv_laggedHalf : laggedHalf.Inv := inv_of_check (by decide)
theorem inv_atTail : atTail.Inv := inv_of_check (by decide)
theorem inv_reset : State.reset.Inv := inv_of_check (by decide)

theorem witness_DecodeInvertsEncode :
    wellFormed (.forward 100) = true ∧ encode (.forward 100) = some [0xFF, 1, 100, 0x65] ∧
    wellFormed (.push 0xFF) = true ∧ encode (.push 0xFF) = some [0x08, 0xFF] := by decide

theorem witness_CompletedFrameOutcome :
    ((1 : Byte) ^^^ 2 ≠ 4) ∧
    ((0 : Byte) ^^^ 0 = 0 ∧ (0 : Byte) ∉ [1, 2, 3, 4]) ∧ ((5 : Byte) ^^^ 0 = 5 ∧ (5 : Byte) ∉ [1, 2, 3, 4]) ∧
    ((4 : Byte) ^^^ 101 = 0x61 ∧ (4 : Byte) ∈ [1, 2, 3, 4] ∧ 100 < (101 : Byte).toNat) ∧
    ((1 : Byte) ^^^ 100 = 0x65 ∧ (100 : Byte).toNat ≤ 100) ∧ ((2 : Byte) ^^^ 100 = 0x66) ∧
    ((3 : Byte) ^^^ 100 = 0x67) ∧ ((4 : Byte) ^^^ 0 = 4 ∧ (0 : Byte).toNat ≤ 100) := by decide

theorem witness_MoveFrameHoldsNoMarker :
    isMoveOpcode 1 = true ∧ magnitudeInRange 0 = true ∧ isMoveOpcode 4 = true ∧ magnitudeInRange 100 = true := by decide

theorem witness_AnyStrobeMayComeFirst :
    Strobe.asserted 0b01111 .rst = false ∧ Strobe.asserted 0b01111 .pTick = true := by decide

theorem witness_StepRunsTheStartedOperation :
    let s : State := { State.reset with inputs := [.strobes 0b01100 0x41 [.cTick]] }
    s.cfg.Supported ∧ decodeStrobes [.cTick] 0b01100 0x41 = some (.cycle, 0b01000) := by decide

theorem witness_StepRunsTheCompletedFrame :
    atTail.cfg.Supported ∧ atTail.cfg.dispatchAtomic = true ∧ atTail.inputs = [.consumerTurn 0] ∧
    atTail.phase = .tail ∧ atTail.newData = true := by decide

theorem witness_StepRunsPopThenFrameStep :
    let s : State := { frameWaiting with inputs := [.consumerTurn 3], phase := .parsing }
    let e : State := { State.reset with inputs := [.consumerTurn 3], phase := .parsing }
    s.cfg.Supported ∧ s.phase = .parsing ∧ consumerCount s ≠ 0 ∧ s.newData = false ∧ s.rd.toNat < s.cfg.capacity ∧
    e.cfg.Supported ∧ e.phase = .parsing ∧ consumerCount e = 0 := by decide

/-- Parameters with three separate motor writes. -/
def separate : Config := { Config.standard with dispatchAtomic := false }

theorem witness_PlacedWordRunsNext :
    State.reset.cfg.Supported ∧ (State.resetWith separate).cfg.Supported ∧ separate.dispatchAtomic = false ∧
    decodeTableWord 8 0x04 = some .cycle ∧ decodeTableWord 16 0xFF08 = some (.push 0xFF) ∧
    decodeTableWord 16 0x410C = some (.push 0x41) ∧
    decodeTableWord 32 0xFF016465 = some (.forward 100) := by decide

theorem witness_StepServesEveryOtherTurn :
    let a : State := { State.reset with inputs := [.readAvailable] }
    let b : State := { State.reset with inputs := [.beginCycle] }
    let c : State := { State.reset with inputs := [.strobes 0 0xFF [.clr]] }
    let d : State := { atTail with inputs := [] }
    (a.cfg.Supported ∧ a.inputs = [.readAvailable]) ∧
    (b.cfg.Supported ∧ b.inputs = [.beginCycle] ∧ b.phase = .idle) ∧
    (c.cfg.Supported ∧ c.inputs = [.strobes 0 0xFF [.clr]]) ∧
    (d.cfg.Supported ∧ d.inputs = [] ∧ d.phase ≠ .idle) ∧
    (laggedFull.cfg.Supported ∧ laggedFull.inputs = [] ∧ laggedFull.phase = .idle ∧ 0 < laggedFull.lagC) ∧
    (State.reset.cfg.Supported ∧ State.reset.inputs = [] ∧ State.reset.phase = .idle ∧ State.reset.lagC = 0) := by decide

theorem witness_StepServesEveryOtherTurn_consumer_and_sync :
    let e : State := { State.reset with inputs := [.consumerTurn 7] }
    let f : State := { atTail with newData := false }
    let g : State := { State.reset with inputs := [.sync .producer] }
    let h : State := { laggedFull with inputs := [.sync .consumer] }
    let k : State := { laggedHalf with inputs := [.sync .producer] }
    (e.cfg.Supported ∧ e.inputs = [.consumerTurn 7] ∧ e.phase = .idle) ∧
    (f.cfg.Supported ∧ f.inputs = [.consumerTurn 0] ∧ f.phase = .tail ∧ f.newData = false) ∧
    (g.cfg.Supported ∧ g.inputs = [.sync .producer] ∧ g.cfg.cdcView = .immediate) ∧
    (h.cfg.Supported ∧ h.inputs = [.sync .consumer] ∧ h.cfg.cdcView = .lagged) ∧
    (k.cfg.Supported ∧ k.inputs = [.sync .producer] ∧ k.cfg.cdcView = .lagged) := by decide

theorem witness_SeparateDispatchTurns :
    let s : State := { atTail with cfg := separate }
    let two : State := { s with phase := .writing true false 33 [.dirA, .duty] }
    let one : State := { s with phase := .writing true false 33 [.dirB] }
    (s.cfg.Supported ∧ s.inputs = [.consumerTurn 0] ∧ s.cfg.dispatchAtomic = false ∧ s.phase = .tail ∧
      s.newData = true) ∧
    (two.cfg.Supported ∧ two.phase = .writing true false 33 [.dirA, .duty] ∧
      ([.dirA, .duty] : List MotorReg)[5 % 2]? = some .duty) ∧
    (one.cfg.Supported ∧ one.phase = .writing true false 33 [.dirB] ∧
      ([.dirB] : List MotorReg)[0 % 1]? = some .dirB) := by decide

theorem witness_ResetWinsOverOtherStrobes :
    let s : State := { atTail with inputs := [.strobes 0b11111 0x41 [.pTick]] }
    s.cfg.Supported ∧ s.inputs = [.strobes 0b11111 0x41 [.pTick]] ∧ Strobe.asserted 0b11111 .rst = true := by decide

theorem witness_PushAppendsOrRefuses :
    (full.Inv ∧ full.cfg.cdcView = .immediate ∧ full.count.toNat = full.cfg.capacity) ∧
    (oneFree.Inv ∧ oneFree.cfg.cdcView = .immediate ∧ oneFree.count.toNat ≠ oneFree.cfg.capacity) :=
  ⟨⟨inv_full, by decide⟩, inv_oneFree, by decide⟩

theorem witness_PopReturnsTheOldestByte :
    (full.Inv ∧ full.cfg.cdcView = .immediate ∧ full.count.toNat ≠ 0) ∧
    (State.reset.Inv ∧ State.reset.cfg.cdcView = .immediate ∧ State.reset.count.toNat = 0) :=
  ⟨⟨inv_full, by decide⟩, inv_reset, by decide⟩

theorem witness_AvailableReportsUnreadBytes :
    full.cfg.cdcView = .immediate ∧ laggedHalf.cfg.cdcView = .lagged := by decide

theorem witness_LaggedCrossing :
    (laggedFull.Inv ∧ laggedFull.cfg.cdcView = .lagged ∧
      laggedFull.count.toNat + laggedFull.lagP = laggedFull.cfg.capacity ∧
      laggedFull.count.toNat - laggedFull.lagC = 0) ∧
    (laggedHalf.Inv ∧ laggedHalf.cfg.cdcView = .lagged ∧ laggedHalf.count.toNat - laggedHalf.lagC ≠ 0) ∧
    (let s : State := { State.resetWith (capLagged 4) with inputs := [.sync .consumer] }
     s.Inv ∧ s.cfg.cdcView = .lagged ∧ s.count.toNat + s.lagP ≠ s.cfg.capacity ∧ s.inputs = [.sync .consumer]) ∧
    (let s : State := { laggedHalf with inputs := [.sync .producer] }
     s.Inv ∧ s.cfg.cdcView = .lagged ∧ s.inputs = [.sync .producer]) :=
  ⟨⟨inv_laggedFull, by decide⟩, ⟨inv_laggedHalf, by decide⟩, ⟨inv_of_check (by decide), by decide⟩,
    inv_of_check (by decide), by decide⟩

theorem witness_WindowIsAQueue :
    (oneFree.Inv ∧ (after (exec (.push 9) oneFree)).map (·.wAck) = some true) ∧
    (full.Inv ∧ (after (exec (.push 9) full)).map (·.wAck) = some false ∧
      (after (exec .pop full)).map (·.result) = some (.popped (some 1))) ∧
    (State.reset.Inv ∧ (after (exec .pop .reset)).map (·.result) = some (.popped none)) :=
  ⟨⟨inv_oneFree, by decide⟩, ⟨inv_full, by decide⟩, inv_reset, by decide⟩

theorem witness_BytesLeaveInArrivalOrder : oneFree.Inv ∧ laggedHalf.Inv := ⟨inv_oneFree, inv_laggedHalf⟩

theorem witness_PushedBytesPopInOrder :
    State.reset.Inv ∧ State.reset.cfg.cdcView = .immediate ∧ State.reset.count = 0 ∧
    ([1, 2, 3, 4, 5, 6, 7, 8] : List Byte).length ≤ State.reset.cfg.capacity :=
  ⟨inv_reset, by decide⟩

theorem witness_IndicesCountTheOperations :
    let s := State.resetWith (cap 1)
    s.Inv ∧ s.wr = 0 ∧ s.rd = 0 ∧ s.count = 0 ∧
    (ringTrace [.push 7, .push 8, .pop, .push 9] s).map (·.accepted) = some [7, 9] :=
  ⟨inv_of_check (by decide), by decide⟩

theorem witness_ParseFeedsAPrefix : frameWaiting.Inv ∧ laggedHalf.Inv := ⟨inv_frameWaiting, inv_laggedHalf⟩

theorem witness_IdleParserDropsGarbage :
    State.reset.inFrame = false ∧ ∀ b ∈ ([0x12, 0x34, 0xFE] : List Byte), b ≠ Config.startMarker := by decide

theorem witness_MoveFrameIsCollectedEitherWay :
    isMoveOpcode 4 = true ∧ magnitudeInRange 100 = true ∧ State.reset.inFrame = false ∧ State.reset.idx = 0 := by decide

theorem witness_ParserRecoversAtTheNextFrame :
    let s : State := { State.reset with inFrame := true, idx := 2, x0 := 1, x1 := 2 }
    s.inFrame = true ∧ s.idx = 2 ∧ s.newData = false ∧ s.cfg.markerRestartsFrame = false := by decide

theorem witness_MoveCommandsDriveTheMotor : (100 : Byte).toNat ≤ 100 ∧ 100 < (101 : Byte).toNat := by decide

theorem witness_PauseRowsWriteTheSafeState :
    Instr.pauseBadOpcode 0xFF 0 ∈
      [Instr.pause, .pauseChecksumFail 0xFF 0 1, .pauseBadOpcode 0xFF 0, .pauseBadMagnitude 0xFF 0] := by decide

theorem witness_DispatchAgreesWithDecoding : atTail.x0 ^^^ atTail.x1 = atTail.x2 := by decide

theorem witness_DispatchHasNoMemory :
    let s : State := { moving with x0 := 1, x1 := 100 }
    s.x0 = atTail.x0 ∧ s.x1 = atTail.x1 ∧ (after (exec .dispatch s)).isSome = true ∧
    (after (exec .dispatch atTail)).isSome = true := by decide

theorem witness_SampleScalesTheDuty : ({ State.reset with duty := 100 } : State).duty.toNat ≤ 100 := by decide

theorem witness_SampleOutOfRangeChangesCmpOnly : 100 < ({ State.reset with duty := 101 } : State).duty.toNat := by decide

theorem witness_ScaleRoundsToNearest : 100 ∣ 300 ∧ 100 ≤ 100 ∧ 99 < 100 := by decide

/-- A frame with a wrong checksum waiting. -/
def badFrameWaiting : State := holding (cap 8) [0xFF, 1, 2, 4]

theorem witness_CycleParsesThenValidatesThenDispatches :
    (State.reset.Inv ∧ State.reset.phase = .idle ∧ (after (exec .parse .reset)).map (·.newData) = some false) ∧
    (frameWaiting.Inv ∧ frameWaiting.phase = .idle ∧
      (after (exec .parse frameWaiting)).map (fun t => (t.newData, t.x0 ^^^ t.x1 == t.x2)) = some (true, true)) ∧
    (badFrameWaiting.Inv ∧ badFrameWaiting.phase = .idle ∧
      (after (exec .parse badFrameWaiting)).map (fun t => (t.newData, t.x0 ^^^ t.x1 == t.x2)) = some (true, false)) :=
  ⟨⟨inv_reset, by decide⟩, ⟨inv_frameWaiting, by decide⟩, inv_of_check (by decide), by decide⟩

theorem witness_CycleOnEmptyBufferChangesNothing :
    consumerCount .reset = 0 ∧ State.reset.newData = false ∧ consumerCount laggedFull = 0 := by decide

theorem witness_SecondTickIsIgnored :
    let s : State := { atTail with inputs := [.beginCycle] }
    s.phase ≠ .idle ∧ s.cfg.Supported ∧ s.inputs = [.beginCycle] := by decide

theorem witness_StepwiseCycleEqualsCycle :
    frameWaiting.Inv ∧ frameWaiting.cfg.dispatchAtomic = true ∧ frameWaiting.phase = .idle ∧ frameWaiting.inputs = [] :=
  ⟨inv_frameWaiting, by decide⟩

theorem witness_SeparateWritesEndAlike :
    let s : State := { atTail with cfg := separate, inputs := [] }
    s.cfg.Supported ∧ s.cfg.dispatchAtomic = false ∧ s.phase = .tail ∧ s.newData = true ∧ s.inputs = [] := by decide

theorem witness_FrameOnTheWireRunsItsCommand :
    let s := State.resetWith (cap 4)
    s.Inv ∧ s.cfg.cdcView = .immediate ∧ s.cfg.markerRestartsFrame = false ∧ s.phase = .idle ∧ s.inFrame = false ∧
    s.count = 0 ∧ 4 ≤ s.cfg.capacity :=
  ⟨inv_of_check (by decide), by decide⟩

theorem witness_ResetMeetsTheInvariants :
    (cap 1).Supported ∧ (cap 255).Supported ∧ ({ cap 8 with maxCompare := 1 } : Config).Supported := by decide

theorem witness_StepKeepsTheInvariants :
    atTail.Inv ∧ (after (step atTail)).isSome = true := ⟨inv_atTail, by decide⟩

theorem witness_EveryStepHasANextState : atTail.Inv ∧ laggedHalf.Inv := ⟨inv_atTail, inv_laggedHalf⟩

theorem witness_ParametersNeverChange :
    (after (step atTail)).isSome = true ∧ State.reset.cfg.Supported ∧ State.reset.inputs = [] ∧
    State.reset.phase = .idle ∧ State.reset.lagC = 0 ∧ State.reset.lagP = 0 := by decide

theorem witness_DutyStaysWithinItsRange :
    ({ State.reset with duty := 100 } : State).duty.toNat ≤ 100 ∧
    (after (exec (.backward 255) { State.reset with duty := 100 })).isSome = true := by decide

theorem witness_InstructionsKeepTheStorage :
    oneFree.StorageInv ∧ (after (exec (.push 0) oneFree)).isSome = true := ⟨inv_oneFree.storage, by decide⟩

/-- The fault a step stops with, if it does. -/
def stop (r : StepResult) : Option Fault :=
  match r with
  | .next _ => none
  | .fault f => some f
  | .refused _ => none

theorem witness_WhereTheModelStops :
    (let s : State := { State.resetWith (cap 4) with wr := 4 }
     producerCount s ≠ s.cfg.capacity ∧ s.cfg.capacity ≤ s.wr.toNat ∧
     stop (exec (.push 1) s) = some (.noSuchCell 4)) ∧
    (let s : State := { State.resetWith (cap 4) with rd := 4, count := 1 }
     consumerCount s ≠ 0 ∧ s.cfg.capacity ≤ s.rd.toNat ∧ s.newData = false ∧ s.phase = .idle ∧
     [Instr.pop, .parse, .cycle].map (fun i => stop (exec i s)) = List.replicate 3 (some (.noSuchCell 4))) ∧
    stop (step { State.resetWith (cap 4) with wr := 4, inputs := [.strobes 0b01000 1 []] }) = some (.noSuchCell 4) ∧
    ¬ (State.resetWith (cap 0)).cfg.Supported ∧ ¬ (State.resetWith (cap 256)).cfg.Supported := by decide

theorem witness_OnlyTheirWritersChangeRegisters :
    (after (exec (.push 9) oneFree)).map (fun t => (decide (t.buf ≠ oneFree.buf), decide (t.wAck ≠ oneFree.wAck))) =
      some (true, true) ∧
    (after (exec .cycle frameWaiting)).map (fun t =>
      (decide (t.rd ≠ frameWaiting.rd), decide (t.parser ≠ frameWaiting.parser), decide (t.motor ≠ frameWaiting.motor))) =
      some (true, true, true) ∧
    (after (exec .reset atTail)).map (fun t => decide (t.phase ≠ atTail.phase)) = some true ∧
    (after (exec .sample { moving with cmp := 0 })).map (·.cmp) = some 84 := by decide

theorem witness_PortsShowTheirRegisters :
    moving.cfg.cdcView = .immediate ∧ laggedHalf.cfg.cdcView = .lagged := by decide

theorem witness_ReadsChangeNoState : consumerCount moving = 0 := by decide

theorem witness_NothingElseIsState :
    let s' : State := { frameWaiting with inputs := [.beginCycle], result := .valid true }
    (frameWaiting.toRegisters = s'.toRegisters ∧ frameWaiting.toLags = s'.toLags ∧ frameWaiting.cfg = s'.cfg ∧
      frameWaiting.phase = s'.phase ∧ frameWaiting ≠ s') ∧
    [Instr.cycle, .pop, .push 7].all (fun i => (after (exec i frameWaiting)).isSome) = true := by decide

theorem witness_ClearAgainstPushHasTwoOutcomes :
    let s : State := { oneFree with inputs := [.strobes 0b01010#5 0xAA [.clr]] }
    let t : State := { oneFree with inputs := [.strobes 0b01010#5 0xAA [.wValid]] }
    s.Inv ∧ s.inputs = [.strobes 0b01010#5 0xAA [.clr]] ∧ t.Inv ∧ t.inputs = [.strobes 0b01010#5 0xAA [.wValid]] :=
  ⟨inv_of_check (by decide), rfl, inv_of_check (by decide), rfl⟩

end Sys2Proof.Tests
end

/-! The state family: what every instruction can do to the state, the invariants over every step, the queue of the
occupied window, and who writes what (10_state.md). -/

namespace Sys2Proof.Machine

/-! ### The command an instruction gives the motor

Nine instructions only drive the motor registers.  They differ in the command they drive them by. -/

/-- The motor command of a Move row, a Pause row or DISPATCH (42_dispatch_commands.md R110 to R115, 60_exceptions.md
R147, R150, R151); none for every other instruction. -/
def motorCommandOf (s : State) : Instr → Option MotorCommand
  | .forward m => some (commandOf .forward m)
  | .right m => some (commandOf .right m)
  | .backward m => some (commandOf .backward m)
  | .left m => some (commandOf .left m)
  | .pause => some (.invalid .badOpcode)
  | .pauseChecksumFail _ _ _ => some (.invalid .checksumFail)
  | .pauseBadOpcode _ _ => some (.invalid .badOpcode)
  | .pauseBadMagnitude _ _ => some (.invalid .badMagnitude)
  | .dispatch => some (motorCommand s.x0 s.x1)
  | _ => none

/-- An instruction with a motor command runs it and does nothing else. -/
theorem exec_of_motorCommandOf {i : Instr} {s : State} {c : MotorCommand} (h : motorCommandOf s i = some c) :
    exec i s = .next (runCommand c s) := by
  cases i <;> cases h <;> rfl

/-- A command with a direction names no speed above 100 (30_encoding.md R77). -/
theorem commandOf_speed_le {d e : Direction} {m v : Byte} (h : commandOf d m = .move e v) : v.toNat ≤ 100 := by
  unfold commandOf dutyOperand at h
  split_ifs at h with hm
  cases h
  exact hm

/-- No instruction commands a speed above 100. -/
theorem motorCommandOf_speed_le {i : Instr} {s : State} {c : MotorCommand} (h : motorCommandOf s i = some c)
    (d : Direction) (v : Byte) (hc : c = .move d v) : v.toNat ≤ 100 := by
  subst hc
  cases i with
  | forward | right | backward | left => exact commandOf_speed_le (Option.some.inj h)
  | dispatch =>
    obtain ⟨rfl, hm⟩ := motorCommand_speed (Option.some.inj h)
    exact hm
  | _ => cases h

/-- So every instruction with a motor command leaves the duty within 0..100 (10_state.md R33). -/
theorem runCommand_motorCommandOf_duty_le {i : Instr} {s : State} {c : MotorCommand}
    (h : motorCommandOf s i = some c) : (runCommand c s).duty.toNat ≤ 100 :=
  runCommand_duty_le s (motorCommandOf_speed_le h)

/-- A completed frame decodes to an instruction with a motor command (30_encoding.md R79). -/
theorem motorCommandOf_decodePayload (op m c : Byte) (s : State) :
    ∃ cmd, motorCommandOf s (decodePayload op m c) = some cmd := by
  rcases decodePayload_cases op m c with
    ⟨-, h⟩ | ⟨-, -, -, -, h⟩ | ⟨-, -, -, h⟩ | ⟨-, -, -, h⟩ | ⟨-, -, ⟨-, h⟩ | ⟨-, h⟩ | ⟨-, h⟩ | ⟨-, h⟩⟩ <;>
  exact h ▸ ⟨_, rfl⟩

/-! ### The tail of CYCLE -/

/-- With a completed frame the tail of CYCLE runs one command and discards the frame (44_control_cycle.md R135). -/
theorem cycleTail_of_frame {s : State} (h : s.newData = true) :
    ∃ c, cycleTail s = (runCommand c s).setNewData false ∧ (runCommand c s).duty.toNat ≤ 100 := by
  unfold cycleTail
  rw [if_pos h]
  split
  · exact ⟨_, rfl, runCommand_motorCommandOf_duty_le (i := .dispatch) rfl⟩
  · exact ⟨.invalid .checksumFail, rfl, runCommand_duty_le s (by simp)⟩

/-- Without one it does nothing (44_control_cycle.md R138). -/
theorem cycleTail_of_none {s : State} (h : s.newData = false) : cycleTail s = s := by
  simp [cycleTail, h]

theorem cycleTail_newData (s : State) : (cycleTail s).newData = false := by
  rw [cycleTail_eq]

theorem cycleTail_duty_le {s : State} (h : s.duty.toNat ≤ 100) : (cycleTail s).duty.toNat ≤ 100 := by
  cases hn : s.newData with
  | false => rwa [cycleTail_of_none hn]
  | true =>
    obtain ⟨c, hc, hd⟩ := cycleTail_of_frame hn
    rwa [hc]

/-! ### What a CYCLE run whole answers -/

/-- A CYCLE that finds none in progress is a PARSE and the tail; any other does nothing (44_control_cycle.md R135,
R136). -/
theorem execCycle_next {s t : State} (h : execCycle s = .next t) :
    (s.phase = .idle ∧ ∃ u, execParse s = .next u ∧ t = cycleTail u) ∨ (s.phase ≠ .idle ∧ t = s) := by
  unfold execCycle at h
  split at h
  · next hp =>
    obtain ⟨u, hu, ht⟩ := andThen_eq_next.mp h
    exact .inl ⟨hp, u, hu, (Host.Outcome.next.inj ht).symm⟩
  · next hp => exact .inr ⟨hp, (Host.Outcome.next.inj h).symm⟩

/-- CYCLE changes the read side of the ring, the parser and the motor registers only (44_control_cycle.md R135). -/
theorem execCycle_frame {s t : State} (h : execCycle s = .next t) :
    t = { s with
      rd := t.rd, count := t.count, lagP := t.lagP
      inFrame := t.inFrame, idx := t.idx, x0 := t.x0, x1 := t.x1, x2 := t.x2, newData := t.newData
      dirA := t.dirA, dirB := t.dirB, duty := t.duty } := by
  rcases execCycle_next h with ⟨-, u, hu, rfl⟩ | ⟨-, rfl⟩
  · rw [cycleTail_eq, parseLoop_frame hu]
  · rfl

/-- POP that answers leaves what it took out and the value it returns. -/
theorem execPop_next {s t : State} (h : execPop s = .next t) :
    (consumerCount s = 0 ∧ t = s.setResult (.popped none)) ∨
    (consumerCount s ≠ 0 ∧ s.rd.toNat < s.cfg.capacity ∧
      t = (ringDrop s).setResult (.popped (some (Memory.read s.buf s.rd.toNat)))) := by
  unfold execPop at h
  rcases ringPop_cases s with ⟨h0, hp⟩ | ⟨h0, hr, hp⟩ | ⟨-, -, hp⟩ <;> rw [hp] at h
  · exact .inl ⟨h0, (Host.Outcome.next.inj h).symm⟩
  · exact .inr ⟨h0, hr, (Host.Outcome.next.inj h).symm⟩
  · cases h

/-- PUSH that answers refuses the byte or appends it. -/
theorem ringPush_next {b : Byte} {s t : State} (h : ringPush b s = .next t) :
    (producerCount s = s.cfg.capacity ∧ t = s.setAck false) ∨
    (producerCount s ≠ s.cfg.capacity ∧ s.wr.toNat < s.cfg.capacity ∧
      t = (((s.setBuf (Memory.write s.buf s.wr.toNat b)).setRing (nextIndex s.wr s) s.rd (s.count + 1)).setLags
        (lagAfter s.lagC s) s.lagP).setAck true) := by
  rcases ringPush_cases b s with ⟨hf, hp⟩ | ⟨hf, hw, hp⟩ | ⟨-, -, hp⟩ <;> rw [hp] at h
  · exact .inl ⟨hf, (Host.Outcome.next.inj h).symm⟩
  · exact .inr ⟨hf, hw, (Host.Outcome.next.inj h).symm⟩
  · cases h

/-! ### What each instruction without a motor command changes -/

section
variable {s t : State}

/-- What RESET writes (70_reset_and_hazards.md R170). -/
def State.afterReset (s : State) : State :=
  { s with
    wr := 0, rd := 0, count := 0, lagC := 0, lagP := 0, inFrame := false, idx := 0, newData := false
    dirA := false, dirB := true, duty := 0, cmp := 0, wAck := false, phase := .idle }

theorem exec_reset_eq (s : State) : exec .reset s = .next s.afterReset := rfl

theorem exec_reset_frame (h : exec .reset s = .next t) : t = s.afterReset :=
  (Host.Outcome.next.inj h).symm

theorem exec_push_frame {b : Byte} (h : exec (.push b) s = .next t) :
    t = { s with buf := t.buf, wr := t.wr, count := t.count, lagC := t.lagC, wAck := t.wAck } := by
  rcases ringPush_next h with ⟨-, rfl⟩ | ⟨-, -, rfl⟩ <;> rfl

theorem exec_clear_frame (h : exec .clear s = .next t) :
    t = { s with wr := 0, rd := 0, count := 0, lagC := 0, lagP := 0 } :=
  (Host.Outcome.next.inj h).symm

theorem exec_sample_frame (h : exec .sample s = .next t) : t = { s with cmp := compareValue s.cfg s.duty } :=
  (Host.Outcome.next.inj h).symm

theorem exec_available_frame (h : exec .available s = .next t) :
    t = { s with result := .unread (BitVec.ofNat 8 (consumerCount s)) } :=
  (Host.Outcome.next.inj h).symm

theorem exec_pop_frame (h : exec .pop s = .next t) :
    t = { s with rd := t.rd, count := t.count, lagP := t.lagP, result := t.result } := by
  rcases execPop_next h with ⟨-, rfl⟩ | ⟨-, -, rfl⟩ <;> rfl

theorem exec_frameStep_frame {b : Byte} (h : exec (.frameStep b) s = .next t) :
    t = { s with
      inFrame := t.inFrame, idx := t.idx, x0 := t.x0, x1 := t.x1, x2 := t.x2, newData := t.newData } := by
  obtain rfl := Host.Outcome.next.inj h
  exact parserStep_eq b s

theorem exec_validate_frame (h : exec .validate s = .next t) : t = { s with result := .valid (checksumValid s) } :=
  (Host.Outcome.next.inj h).symm

end

/-! ### The compare value -/

/-- `scale` stays within 0..MAX_COMPARE (43_pwm_output.md R127, 10_state.md R36). -/
theorem scale_le {maxCompare d : Nat} (h : d ≤ 100) : scale maxCompare d ≤ maxCompare := by
  unfold scale
  have : d * maxCompare ≤ 100 * maxCompare := Nat.mul_le_mul_right _ h
  omega

theorem compareValue_le {c : Config} {d : Byte} (h : d.toNat ≤ 100) : compareValue c d ≤ c.maxCompare := by
  unfold compareValue Config.dutyMax
  rw [if_pos h]
  exact scale_le h

/-! ### The invariants look at these registers only -/

section
variable {s t : State}

theorem State.RingInv.congr (h : s.RingInv) (hcfg : t.cfg = s.cfg := by simp) (hwr : t.wr = s.wr := by simp)
    (hrd : t.rd = s.rd := by simp) (hcount : t.count = s.count := by simp) : t.RingInv := by
  obtain ⟨h1, h2, h3, h4⟩ := h
  constructor <;> simpa only [hcfg, hwr, hrd, hcount]

theorem State.StorageInv.congr (h : s.StorageInv) (hcfg : t.cfg = s.cfg := by simp)
    (hbuf : t.buf = s.buf := by simp) : t.StorageInv := by
  obtain ⟨h1, h2⟩ := h
  constructor <;> simpa only [hcfg, hbuf]

theorem State.ParserInv.congr (h : s.ParserInv) (hinFrame : t.inFrame = s.inFrame := by simp)
    (hidx : t.idx = s.idx := by simp) (hnewData : t.newData = s.newData := by simp)
    (hphase : t.phase = s.phase := by simp) : t.ParserInv := by
  obtain ⟨h1, h2, h3⟩ := h
  constructor <;> simpa only [hinFrame, hidx, hnewData, hphase]

theorem State.MotorInv.congr (h : s.MotorInv) (hcfg : t.cfg = s.cfg := by simp)
    (hduty : t.duty = s.duty := by simp) (hphase : t.phase = s.phase := by simp)
    (hcmp : t.cmp = s.cmp := by simp) : t.MotorInv := by
  obtain ⟨h1, h2, h3⟩ := h
  constructor <;> simpa only [hcfg, hduty, hphase, hcmp]

theorem State.LagInv.congr (h : s.LagInv) (hcfg : t.cfg = s.cfg := by simp)
    (hcount : t.count = s.count := by simp) (hlagC : t.lagC = s.lagC := by simp)
    (hlagP : t.lagP = s.lagP := by simp) : t.LagInv := by
  obtain ⟨h1, h2, h3⟩ := h
  constructor <;> simpa only [hcfg, hcount, hlagC, hlagP]

/-- An empty ring at index 0 meets the ring invariants (10_state.md R39). -/
theorem State.RingInv.of_empty (hC : 0 < s.cfg.capacity) (hwr : s.wr = 0) (hrd : s.rd = 0) (hcount : s.count = 0) :
    s.RingInv := by
  constructor <;> simp [hwr, hrd, hcount, hC]

/-- No lag is within its bounds. -/
theorem State.LagInv.of_zero (hlagC : s.lagC = 0) (hlagP : s.lagP = 0) : s.LagInv := by
  constructor <;> simp [hlagC, hlagP]

end

/-! ### The ring operations keep the invariants -/

section
variable {s : State}

/-- A PUSH that is not refused finds a free cell, under both views (20_memory.md R64). -/
theorem State.Inv.count_lt_of_producerCount (h : s.Inv) (hf : producerCount s ≠ s.cfg.capacity) :
    s.count.toNat < s.cfg.capacity := by
  have hcount := h.ring.count_le
  have hlag := h.lags.lagP_le
  unfold producerCount at hf
  split at hf <;> omega

/-- A POP that returns a byte finds one, under both views (20_memory.md R64). -/
theorem count_pos_of_consumerCount (hc : consumerCount s ≠ 0) : 0 < s.count.toNat := by
  unfold consumerCount at hc
  split at hc <;> omega

theorem State.Inv.count_add_one (h : s.Inv) (hf : producerCount s ≠ s.cfg.capacity) :
    (s.count + 1).toNat = s.count.toNat + 1 := by
  have hlt := h.count_lt_of_producerCount hf
  obtain ⟨-, hC, -⟩ := h.supported
  have : s.count.toNat + 1 < 256 := by omega
  bv_omega

theorem count_sub_one (hc : consumerCount s ≠ 0) : (s.count - 1).toNat = s.count.toNat - 1 := by
  have hpos := count_pos_of_consumerCount hc
  bv_omega

/-- An append moves `wr` past the new byte (40_ringbuffer_ops.md R94). -/
theorem State.Inv.ringInv_append {t : State} (h : s.Inv) (hf : producerCount s ≠ s.cfg.capacity)
    (hcfg : t.cfg = s.cfg) (hwr : t.wr = nextIndex s.wr s) (hrd : t.rd = s.rd) (hcount : t.count = s.count + 1) :
    t.RingInv := by
  obtain ⟨-, hC, -⟩ := h.supported
  have hlt := h.count_lt_of_producerCount hf
  have hadd := h.count_add_one hf
  constructor <;> rw [hcfg]
  case count_le => rw [hcount, hadd]; exact hlt
  case wr_lt => rw [hwr]; exact nextIndex_lt hC h.ring.wr_lt
  case rd_lt => rw [hrd]; exact h.ring.rd_lt
  case wr_eq =>
    rw [hwr, hrd, hcount, hadd, nextIndex_toNat hC h.ring.wr_lt, h.ring.wr_eq, Nat.mod_add_mod, Nat.add_assoc]

/-- A removal moves `rd` past the byte taken (40_ringbuffer_ops.md R94). -/
theorem State.Inv.ringInv_drop {t : State} (h : s.Inv) (hc : consumerCount s ≠ 0)
    (hcfg : t.cfg = s.cfg) (hwr : t.wr = s.wr) (hrd : t.rd = nextIndex s.rd s) (hcount : t.count = s.count - 1) :
    t.RingInv := by
  obtain ⟨-, hC, -⟩ := h.supported
  have hpos := count_pos_of_consumerCount hc
  have hsub := count_sub_one hc
  constructor <;> rw [hcfg]
  case count_le => rw [hcount, hsub]; exact (Nat.sub_le _ _).trans h.ring.count_le
  case wr_lt => rw [hwr]; exact h.ring.wr_lt
  case rd_lt => rw [hrd]; exact nextIndex_lt hC h.ring.rd_lt
  case wr_eq =>
    rw [hwr, hrd, hcount, hsub, nextIndex_toNat hC h.ring.rd_lt, h.ring.wr_eq, Nat.mod_add_mod]
    congr 1
    omega

/-- An accepted PUSH keeps the lags within their bounds, under both views (20_memory.md R64). -/
theorem State.Inv.lagInv_append {t : State} (h : s.Inv) (hf : producerCount s ≠ s.cfg.capacity)
    (hcfg : t.cfg = s.cfg) (hcount : t.count = s.count + 1) (hlagC : t.lagC = lagAfter s.lagC s)
    (hlagP : t.lagP = s.lagP) : t.LagInv := by
  obtain ⟨hC, hP, himm⟩ := h.lags
  have hadd := h.count_add_one hf
  cases hv : s.cfg.cdcView with
  | immediate =>
    obtain ⟨hC0, hP0⟩ := himm hv
    exact .of_zero (by simp [hlagC, lagAfter, hv, hC0]) (hlagP.trans hP0)
  | lagged =>
    have hfree : s.count.toNat + s.lagP ≠ s.cfg.capacity := by simpa [producerCount, hv] using hf
    constructor <;> simp only [hcfg, hcount, hadd, hlagC, hlagP, lagAfter, hv]
    case lagC_le => omega
    case lagP_le => omega
    case immediate => exact nofun

/-- A POP that returns a byte keeps the lags within their bounds, under both views (20_memory.md R64). -/
theorem State.Inv.lagInv_drop {t : State} (h : s.Inv) (hc : consumerCount s ≠ 0)
    (hcfg : t.cfg = s.cfg) (hcount : t.count = s.count - 1) (hlagC : t.lagC = s.lagC)
    (hlagP : t.lagP = lagAfter s.lagP s) : t.LagInv := by
  obtain ⟨hC, hP, himm⟩ := h.lags
  have hsub := count_sub_one hc
  have hle := h.ring.count_le
  cases hv : s.cfg.cdcView with
  | immediate =>
    obtain ⟨hC0, hP0⟩ := himm hv
    exact .of_zero (hlagC.trans hC0) (by simp [hlagP, lagAfter, hv, hP0])
  | lagged =>
    have hseen : s.count.toNat - s.lagC ≠ 0 := by simpa [consumerCount, hv] using hc
    constructor <;> simp only [hcfg, hcount, hsub, hlagC, hlagP, lagAfter, hv]
    case lagC_le => omega
    case lagP_le => omega
    case immediate => exact nofun

/-- The byte is written to a cell that exists, in the canonical form (20_memory.md R50). -/
theorem State.StorageInv.write {t : State} {a : Nat} {b : Byte} (h : s.StorageInv) (ha : a < s.cfg.capacity)
    (hcfg : t.cfg = s.cfg) (hbuf : t.buf = Memory.write s.buf a b) : t.StorageInv := by
  constructor <;> rw [hbuf]
  case wf => exact Memory.wf_write h.wf
  case cells =>
    intro c hc
    rw [hcfg]
    rcases Memory.mem_write hc with rfl | hc
    · exact ha
    · exact h.cells c hc

theorem State.Inv.setAck (h : s.Inv) (b : Bool) : (s.setAck b).Inv :=
  ⟨h.supported, h.ring.congr, h.storage.congr, h.parser.congr, h.motor.congr, h.lags.congr⟩

/-- PUSH keeps the invariants (40_ringbuffer_ops.md R90). -/
theorem State.Inv.ringPush {b : Byte} {t : State} (h : s.Inv) (ht : ringPush b s = .next t) : t.Inv := by
  rcases ringPush_next ht with ⟨-, rfl⟩ | ⟨hf, hw, rfl⟩
  · exact h.setAck false
  · exact ⟨h.supported, h.ringInv_append hf rfl rfl rfl rfl, h.storage.write hw rfl rfl, h.parser.congr,
      h.motor.congr, h.lagInv_append hf rfl rfl rfl rfl⟩

/-- Taking a byte out keeps the invariants (40_ringbuffer_ops.md R91). -/
theorem State.Inv.ringDrop (h : s.Inv) (hc : consumerCount s ≠ 0) : (ringDrop s).Inv :=
  ⟨h.supported, h.ringInv_drop hc rfl rfl rfl rfl, h.storage.congr rfl rfl, h.parser.congr rfl rfl rfl rfl,
    h.motor.congr rfl rfl rfl rfl, h.lagInv_drop hc rfl rfl rfl rfl⟩

/-- CLEAR keeps the invariants (40_ringbuffer_ops.md R93). -/
theorem State.Inv.ringClear (h : s.Inv) : (ringClear s).Inv :=
  ⟨h.supported, .of_empty h.supported.1 rfl rfl rfl, h.storage.congr rfl rfl, h.parser.congr rfl rfl rfl rfl,
    h.motor.congr rfl rfl rfl rfl, .of_zero rfl rfl⟩

/-- A SYNC step keeps the invariants (20_memory.md R64). -/
theorem State.Inv.syncLag (h : s.Inv) (side : LagSide) : (syncLag side s).Inv := by
  obtain ⟨hC, hP⟩ := syncLag_le side s
  have hframe := syncLag_eq side s
  have hlag := h.lags
  rw [hframe]
  refine ⟨h.supported, h.ring.congr, h.storage.congr, h.parser.congr, h.motor.congr,
    ⟨hC.trans hlag.lagC_le, hP.trans hlag.lagP_le, fun hv => ?_⟩⟩
  obtain ⟨hC0, hP0⟩ := hlag.immediate hv
  exact ⟨Nat.le_zero.mp (hC0 ▸ hC), Nat.le_zero.mp (hP0 ▸ hP)⟩

/-! ### The context of the run -/

/-- Another context keeps the invariants, unless it ends a CYCLE with its frame still there or is about to write a duty
above 100. -/
theorem State.Inv.inContext {p : CyclePhase} (h : s.Inv) (hn : p = .idle → s.newData = false)
    (hd : ∀ d, p.target = some d → d.toNat ≤ 100) (l : List Input) (r : OpResult) : (s.inContext p l r).Inv :=
  ⟨h.supported, h.ring.congr rfl rfl rfl rfl, h.storage.congr rfl rfl,
    ⟨h.parser.idle_idx, h.parser.complete_idx, hn⟩, ⟨h.motor.duty_le, hd, h.motor.cmp_le⟩,
    h.lags.congr rfl rfl rfl rfl⟩

theorem State.Inv.setPhase {p : CyclePhase} (h : s.Inv) (hn : p = .idle → s.newData = false)
    (hd : ∀ d, p.target = some d → d.toNat ≤ 100) : (s.setPhase p).Inv :=
  h.inContext hn hd s.inputs s.result

theorem State.Inv.setInputs (h : s.Inv) (l : List Input) : (s.setInputs l).Inv :=
  h.inContext h.parser.between_cycles h.motor.target_le l s.result

theorem State.Inv.setResult (h : s.Inv) (r : OpResult) : (s.setResult r).Inv :=
  h.inContext h.parser.between_cycles h.motor.target_le s.inputs r

/-! ### The parser keeps the invariants -/

/-- FRAME_STEP while no completed frame waits keeps the index in step with the flags (10_state.md R31). -/
theorem parserStep_idx {b : Byte} (h : s.ParserInv) (hn : s.newData = false) :
    ((parserStep b s).inFrame = false → (parserStep b s).idx = 0) ∧
    ((parserStep b s).newData = true → (parserStep b s).idx = 0) := by
  have hidle := h.idle_idx
  unfold parserStep markerTest
  rcases collectPayload_cases b s with ⟨hf, hs⟩ | ⟨-, -, hs⟩ | ⟨-, -, hs⟩ | ⟨-, -, hs⟩ <;> rw [hs] <;> split <;>
    simp_all

/-- A FRAME_STEP within a CYCLE, while no completed frame waits, keeps the invariants (10_state.md R31). -/
theorem State.Inv.parserStep (h : s.Inv) (hn : s.newData = false) (hp : s.phase ≠ .idle) (b : Byte) :
    (parserStep b s).Inv := by
  obtain ⟨hidle, hcomplete⟩ := parserStep_idx (b := b) h.parser hn
  refine ⟨?_, h.ring.congr, h.storage.congr, ⟨hidle, hcomplete, fun hi => ?_⟩, h.motor.congr, h.lags.congr⟩
  · rw [parserStep_cfg]
    exact h.supported
  · rw [parserStep_phase] at hi
    exact absurd hi hp

theorem parseDone_false_iff : parseDone s = false ↔ consumerCount s ≠ 0 ∧ s.newData = false := by
  simp [parseDone]

/-- A pass of PARSE within a CYCLE keeps the invariants (41_framer_ops.md R102). -/
theorem State.Inv.parsePass {t : State} (h : s.Inv) (hp : s.phase ≠ .idle) (hd : parseDone s = false)
    (ht : parsePass s = .next t) : t.Inv := by
  obtain ⟨hc, hn⟩ := parseDone_false_iff.mp hd
  rcases parsePass_cases hd with ⟨-, heq⟩ | ⟨-, heq⟩ <;> rw [heq] at ht <;> cases ht
  exact (h.ringDrop hc).parserStep hn hp _

/-- PARSE within a CYCLE keeps the invariants, by induction on its passes (41_framer_ops.md R102). -/
theorem State.Inv.parseLoop {n : Nat} {t : State} (h : s.Inv) (hp : s.phase ≠ .idle)
    (ht : parseLoop n s = .next t) : t.Inv := by
  induction n generalizing s with
  | zero => exact Host.Outcome.next.inj ht ▸ h
  | succ n ih =>
    unfold Machine.parseLoop at ht
    split at ht
    · exact Host.Outcome.next.inj ht ▸ h
    · next hd =>
      obtain ⟨u, hu, hut⟩ := andThen_eq_next.mp ht
      have hphase : u.phase = s.phase := by rw [parsePass_frame hu]
      exact ih (h.parsePass hp (by simpa using hd) hu) (hphase ▸ hp) hut

/-- Discarding the frame keeps the invariants (44_control_cycle.md R135). -/
theorem State.Inv.discardFrame (h : s.Inv) : (s.setNewData false).Inv :=
  ⟨h.supported, h.ring.congr, h.storage.congr, ⟨h.parser.idle_idx, nofun, fun _ => rfl⟩, h.motor.congr, h.lags.congr⟩

/-! ### The motor writes keep the invariants -/

theorem State.Inv.setMotor {d : Byte} (h : s.Inv) (hd : d.toNat ≤ 100) (a b : Bool) : (s.setMotor a b d).Inv :=
  ⟨h.supported, h.ring.congr, h.storage.congr, h.parser.congr, ⟨hd, h.motor.target_le, h.motor.cmp_le⟩, h.lags.congr⟩

/-- A command without a speed above 100 keeps the invariants (10_state.md R33). -/
theorem State.Inv.runCommand {c : MotorCommand} (h : s.Inv) (hd : (runCommand c s).duty.toNat ≤ 100) :
    (runCommand c s).Inv := by
  rw [runCommand_eq]
  exact h.setMotor hd _ _

/-- SAMPLE keeps the invariants (10_state.md R36). -/
theorem State.Inv.sample (h : s.Inv) : (s.setCmp (compareValue s.cfg s.duty)).Inv :=
  ⟨h.supported, h.ring.congr, h.storage.congr, h.parser.congr,
    ⟨h.motor.duty_le, h.motor.target_le, compareValue_le h.motor.duty_le⟩, h.lags.congr⟩

theorem State.Inv.cycleTail (h : s.Inv) : (cycleTail s).Inv := by
  cases hn : s.newData with
  | false => rwa [cycleTail_of_none hn]
  | true =>
    obtain ⟨c, hc, hd⟩ := cycleTail_of_frame hn
    rw [hc]
    exact (h.runCommand hd).discardFrame

/-! ### CYCLE and RESET keep the invariants -/

/-- A CYCLE run whole keeps the invariants (44_control_cycle.md R135).  Between its passes a completed frame can wait
while the recorded progress is `idle`, which the invariants exclude; so the argument follows the same CYCLE with its
progress recorded as `parsing`, at which no operation of it looks. -/
theorem State.Inv.execCycle {t : State} (h : s.Inv) (ht : execCycle s = .next t) : t.Inv := by
  rcases execCycle_next ht with ⟨-, u, hu, rfl⟩ | ⟨-, rfl⟩
  · have hparsing : (s.inContext .parsing s.inputs s.result).Inv := h.inContext (p := .parsing) nofun nofun _ _
    have hloop : Machine.parseLoop (consumerCount s) (s.inContext .parsing s.inputs s.result) =
        .next (u.inContext .parsing s.inputs s.result) := by
      rw [parseLoop_inContext]
      exact congrArg (inContextOf _ _ _) hu
    have htail := (hparsing.parseLoop nofun hloop).cycleTail
    rw [cycleTail_inContext] at htail
    have hphase : (Machine.cycleTail u).phase = s.phase := by
      rw [cycleTail_eq, parseLoop_frame hu]
    exact htail.inContext (fun _ => cycleTail_newData u) (hphase ▸ h.motor.target_le)
      (Machine.cycleTail u).inputs (Machine.cycleTail u).result
  · exact h

/-- RESET meets the invariants from any storage that does (70_reset_and_hazards.md R170). -/
theorem State.Inv.execReset {t : State} (h : s.Inv) (ht : execReset s = .next t) : t.Inv := by
  obtain rfl := Host.Outcome.next.inj ht
  exact ⟨h.supported, .of_empty h.supported.1 rfl rfl rfl, h.storage.congr rfl rfl, ⟨fun _ => rfl, nofun, fun _ => rfl⟩,
    ⟨Nat.zero_le _, nofun, Nat.zero_le _⟩, .of_zero rfl rfl⟩

/-! ### The turns of the schedule keep the invariants -/

/-- The operation a strobe starts keeps the invariants. -/
theorem State.Inv.exec_strobe {t : State} {l : Strobe} {d : Byte} (h : s.Inv)
    (ht : exec (l.operation d) s = .next t) : t.Inv := by
  cases l with
  | rst => exact h.execReset ht
  | wValid => exact h.ringPush ht
  | cTick => exact h.execCycle ht
  | clr => exact Host.Outcome.next.inj ht ▸ h.ringClear
  | pTick => exact Host.Outcome.next.inj ht ▸ h.sample

theorem State.Inv.serveStrobes {t : State} {S : BitVec 5} {d : Byte} {order : List Strobe} {rest : List Input}
    (h : s.Inv) (ht : serveStrobes S d order rest s = .next t) : t.Inv := by
  unfold Machine.serveStrobes at ht
  rcases decodeStrobes_cases order S d with ⟨-, hs⟩ | ⟨l, -, -, hs⟩ | ⟨-, hs⟩ <;> rw [hs] at ht
  · exact (h.setInputs _).exec_strobe (l := .rst) (d := d) ht
  · exact (h.setInputs _).exec_strobe ht
  · exact Host.Outcome.next.inj ht ▸ h.setInputs rest

theorem State.Inv.finishCycle (h : s.Inv) : (finishCycle s).Inv :=
  h.discardFrame.setPhase (fun _ => rfl) nofun

/-- The tail taken step by step keeps the invariants, for both values of DISPATCH_ATOMIC (44_control_cycle.md R135,
93_implementation_defined.md U19). -/
theorem State.Inv.tailTurn {t : State} (h : s.Inv) (ht : tailTurn s = .next t) : t.Inv := by
  cases hn : s.newData with
  | false =>
    rw [tailTurn_of_none hn] at ht
    exact Host.Outcome.next.inj ht ▸ h.setPhase (fun _ => hn) nofun
  | true =>
    obtain ⟨c, hc⟩ := motorCommandOf_decodePayload s.x0 s.x1 s.x2 s
    have hd := runCommand_motorCommandOf_duty_le hc
    simp only [Machine.tailTurn, hn, if_true, exec_of_motorCommandOf hc, andThen_next] at ht
    split at ht <;> obtain rfl := Host.Outcome.next.inj ht
    · exact (h.runCommand hd).finishCycle
    · exact h.setPhase nofun fun d' hd' => Option.some.inj hd' ▸ hd

/-- One of the separate motor writes keeps the invariants (93_implementation_defined.md U19). -/
theorem State.Inv.writeMotor {d : Byte} (h : s.Inv) (hd : d.toNat ≤ 100) (a b : Bool) (r : MotorReg) :
    (writeMotor a b d r s).Inv := by
  cases r with
  | dirA => exact h.setMotor h.motor.duty_le a s.dirB
  | dirB => exact h.setMotor h.motor.duty_le s.dirA b
  | duty => exact h.setMotor hd s.dirA s.dirB

theorem State.Inv.writeTurn {d : Byte} (h : s.Inv) (hd : d.toNat ≤ 100) (k : Nat) (a b : Bool)
    (left : List MotorReg) : (writeTurn k a b d left s).Inv := by
  cases hr : left[k % left.length]? with
  | none => simpa [Machine.writeTurn, hr] using h.finishCycle
  | some r =>
    rw [writeTurn_of_get hr]
    split
    · exact (h.writeMotor hd a b r).finishCycle
    · exact (h.writeMotor hd a b r).setPhase nofun fun d' hd' => Option.some.inj hd' ▸ hd

/-- Every atomic step of a CYCLE in progress keeps the invariants (44_control_cycle.md R136). -/
theorem State.Inv.consumerStep {k : Nat} {t : State} (h : s.Inv) (ht : consumerStep k s = .next t) : t.Inv := by
  unfold Machine.consumerStep at ht
  split at ht
  case h_1 => exact Host.Outcome.next.inj ht ▸ h
  case h_2 hp =>
    split at ht
    · exact Host.Outcome.next.inj ht ▸ h.setPhase nofun nofun
    · next hd => exact h.parsePass (by simp [hp]) (by simpa using hd) ht
  case h_3 => exact h.tailTurn ht
  case h_4 a b d left hp =>
    exact Host.Outcome.next.inj ht ▸ h.writeTurn (h.motor.target_le d (by rw [hp]; rfl)) k a b left

theorem State.Inv.quietTurn {t : State} (h : s.Inv) (ht : quietTurn s = .next t) : t.Inv := by
  unfold Machine.quietTurn at ht
  split_ifs at ht
  · exact Host.Outcome.next.inj ht ▸ h.syncLag .consumer
  · exact Host.Outcome.next.inj ht ▸ h.syncLag .producer
  · exact h.consumerStep ht

theorem State.Inv.beginCycle (h : s.Inv) : (beginCycle s).Inv := by
  unfold Machine.beginCycle
  split
  · exact h.setPhase nofun nofun
  · exact h

/-- Every turn keeps the invariants. -/
theorem State.Inv.takeTurn {t : State} (h : s.Inv) (ht : takeTurn s = .next t) : t.Inv := by
  unfold Machine.takeTurn at ht
  split at ht
  case h_1 => exact h.quietTurn ht
  case h_2 => exact h.serveStrobes ht
  case h_3 rest _ => exact Host.Outcome.next.inj ht ▸ (h.setInputs rest).beginCycle
  case h_4 rest _ => exact (h.setInputs rest).consumerStep ht
  case h_5 side rest _ => exact Host.Outcome.next.inj ht ▸ (h.setInputs rest).syncLag side
  case h_6 rest _ => exact Host.Outcome.next.inj ht ▸ (h.setInputs rest).setResult _

end

/-- Settles O45: the turn a step takes keeps every invariant. -/
theorem stepKeepsTheInvariants : Obligations.StepKeepsTheInvariants := by
  intro s t h ht
  rw [step_of_supported h.supported] at ht
  exact h.takeTurn ht

/-! ### The occupied window is a queue -/

/-- The cells of the window other than the one past its end are not that one (10_state.md R26 (d)). -/
theorem add_mod_ne {a k n C : Nat} (hk : k < n) (hn : n < C) : (a + n) % C ≠ (a + k) % C := by
  intro heq
  have hmod : n % C = k % C := Nat.ModEq.add_left_cancel' a heq
  rw [Nat.mod_eq_of_lt hn, Nat.mod_eq_of_lt (hk.trans hn)] at hmod
  omega

/-- A byte written past the end of the window is appended to it. -/
theorem State.Inv.contents_append {s t : State} {b : Byte} (h : s.Inv) (hlt : s.count.toNat < s.cfg.capacity)
    (hcfg : t.cfg = s.cfg) (hbuf : t.buf = Memory.write s.buf s.wr.toNat b) (hrd : t.rd = s.rd)
    (hcount : t.count.toNat = s.count.toNat + 1) : t.contents = s.contents ++ [b] := by
  unfold State.contents State.window
  rw [hcfg, hbuf, hrd, hcount, h.ring.wr_eq, List.range_succ, List.map_append, List.map_singleton,
    Memory.read_write_same h.storage.wf]
  congr 1
  refine List.map_congr_left fun k hk => Memory.read_write_other ?_
  exact add_mod_ne (List.mem_range.mp hk) hlt

/-- POP takes the first byte of the window. -/
theorem State.Inv.contents_eq_cons {s : State} (h : s.Inv) (hc : consumerCount s ≠ 0) :
    s.contents = Memory.read s.buf s.rd.toNat :: (Machine.ringDrop s).contents := by
  obtain ⟨-, hC, -⟩ := h.supported
  obtain ⟨n, hn⟩ := Nat.exists_eq_add_of_lt (count_pos_of_consumerCount hc)
  have hrd : (Machine.ringDrop s).rd.toNat = (s.rd.toNat + 1) % s.cfg.capacity := nextIndex_toNat hC h.ring.rd_lt
  have hcount : (Machine.ringDrop s).count.toNat = n := (count_sub_one hc).trans (by omega)
  have hcell : ∀ k, ((s.rd.toNat + 1) % s.cfg.capacity + k) % s.cfg.capacity =
      (s.rd.toNat + (k + 1)) % s.cfg.capacity := fun k => by
    rw [Nat.mod_add_mod, Nat.add_assoc, Nat.add_comm 1 k]
  unfold State.contents State.window
  rw [hrd, hcount, show s.count.toNat = n + 1 by omega, List.range_succ_eq_map, List.map_cons, List.map_map,
    Nat.add_zero, Nat.mod_eq_of_lt h.ring.rd_lt]
  exact congrArg _ (List.map_congr_left fun k _ => congrArg (Memory.read s.buf) (hcell k).symm)

/-- Settles O18: PUSH writes the cell past the end of the window, POP moves its start by one. -/
theorem windowIsAQueue : Obligations.WindowIsAQueue := by
  intro s t h
  refine ⟨fun b ht => ?_, fun ht => ?_⟩
  · rcases ringPush_next ht with ⟨-, rfl⟩ | ⟨hf, -, rfl⟩
    · exact ⟨nofun, fun _ => rfl⟩
    · exact ⟨fun _ => h.contents_append (h.count_lt_of_producerCount hf) rfl rfl rfl (h.count_add_one hf), nofun⟩
  · rcases execPop_next ht with ⟨-, rfl⟩ | ⟨hc, -, rfl⟩
    · exact ⟨nofun, fun _ => rfl⟩
    · refine ⟨fun b hb => ?_, nofun⟩
      obtain rfl : Memory.read s.buf s.rd.toNat = b := Option.some.inj (OpResult.popped.inj hb)
      exact h.contents_eq_cons hc

/-! ### The duty's range -/

/-- No instruction takes the duty out of 0..100 (10_state.md R33). -/
theorem exec_duty_le {i : Instr} {s t : State} (h : s.duty.toNat ≤ 100) (ht : exec i s = .next t) :
    t.duty.toNat ≤ 100 := by
  cases hc : motorCommandOf s i with
  | some c =>
    obtain rfl := Host.Outcome.next.inj ((exec_of_motorCommandOf hc).symm.trans ht)
    exact runCommand_motorCommandOf_duty_le hc
  | none =>
    cases i with
    | forward | right | backward | left => cases hc
    | pause | pauseChecksumFail | pauseBadOpcode | pauseBadMagnitude | dispatch => cases hc
    | reset => rw [exec_reset_frame ht]; exact Nat.zero_le _
    | push => rwa [exec_push_frame ht]
    | clear => rwa [exec_clear_frame ht]
    | sample => rwa [exec_sample_frame ht]
    | available => rwa [exec_available_frame ht]
    | pop => rwa [exec_pop_frame ht]
    | frameStep => rwa [exec_frameStep_frame ht]
    | parse => rwa [parseLoop_frame ht]
    | validate => rwa [exec_validate_frame ht]
    | cycle =>
      rcases execCycle_next ht with ⟨-, u, hu, rfl⟩ | ⟨-, rfl⟩
      · exact cycleTail_duty_le (by rwa [parseLoop_frame hu])
      · exact h

/-- Settles O48. -/
theorem dutyStaysWithinItsRange : Obligations.DutyStaysWithinItsRange := by
  intro i s t h ht
  have hd := exec_duty_le h ht
  exact ⟨hd, scale_le hd⟩

/-! ### Who writes what -/

/-- Settles O51, from what each instruction leaves unchanged. -/
theorem onlyTheirWritersChangeRegisters : Obligations.OnlyTheirWritersChangeRegisters := by
  intro i s t ht
  cases hc : motorCommandOf s i with
  | some c =>
    obtain rfl := Host.Outcome.next.inj ((exec_of_motorCommandOf hc).symm.trans ht)
    rw [runCommand_eq]
    cases i <;> cases hc <;> simp [State.parser]
  | none =>
    cases i with
    | forward | right | backward | left => cases hc
    | pause | pauseChecksumFail | pauseBadOpcode | pauseBadMagnitude | dispatch => cases hc
    | reset => simp [exec_reset_frame ht, State.afterReset]
    | push => rw [exec_push_frame ht]; simp [State.parser, State.motor]
    | clear => rw [exec_clear_frame ht]; simp [State.parser, State.motor]
    | sample => rw [exec_sample_frame ht]; simp [State.parser, State.motor]
    | available => rw [exec_available_frame ht]; simp [State.parser, State.motor]
    | pop => rw [exec_pop_frame ht]; simp [State.parser, State.motor]
    | frameStep => rw [exec_frameStep_frame ht]; simp [State.motor]
    | parse => rw [parseLoop_frame ht]; simp [State.motor]
    | validate => rw [exec_validate_frame ht]; simp [State.parser, State.motor]
    | cycle => rw [execCycle_frame ht]; simp

/-! ### What is state and what is not -/

section
variable (p : CyclePhase) (l : List Input) (r : OpResult) {s t : State}

/-- No value-returning instruction drives the motor. -/
theorem motorCommandOf_of_returns {i : Instr} (s : State) (h : i ∈ [.pop, .available, .validate]) :
    motorCommandOf s i = none := by
  simp only [List.mem_cons, List.not_mem_nil, or_false] at h
  rcases h with rfl | rfl | rfl <;> rfl

theorem motorCommandOf_inContext (i : Instr) : motorCommandOf (s.inContext p l r) i = motorCommandOf s i := by
  cases i <;> rfl

theorem execPop_inContext (h : execPop s = .next t) :
    execPop (s.inContext p l r) = .next (t.inContext p l t.result) := by
  unfold execPop at *
  rw [ringPop_inContext]
  cases hp : ringPop s with
  | error e => rw [hp] at h; cases h
  | ok a => rw [hp] at h; cases h; rfl

/-- CYCLE looks at nothing of the context but the CYCLE in progress (44_control_cycle.md R136). -/
theorem execCycle_inContext (h : execCycle s = .next t) :
    execCycle (s.inContext s.phase l r) = .next (t.inContext s.phase l r) := by
  unfold execCycle
  rcases execCycle_next h with ⟨hp, u, hu, rfl⟩ | ⟨hp, rfl⟩
  · have hloop : execParse (s.inContext s.phase l r) = .next (u.inContext s.phase l r) :=
      (parseLoop_inContext s.phase l r s _).trans (congrArg (inContextOf _ _ _) hu)
    rw [if_pos (by exact hp), hloop, andThen_next, cycleTail_inContext]
  · rw [if_neg (by exact hp)]

end

/-- Settles O58: the two states differ by their context only, at which no instruction but CYCLE looks. -/
theorem nothingElseIsState : Obligations.NothingElseIsState := by
  intro i s s' t hr hl hcfg hphase ht
  rw [State.eq_inContext hr hl hcfg]
  generalize s'.inputs = l, s'.result = r
  cases hc : motorCommandOf s i with
  | some c =>
    obtain rfl := Host.Outcome.next.inj ((exec_of_motorCommandOf hc).symm.trans ht)
    refine ⟨_, exec_of_motorCommandOf ((motorCommandOf_inContext _ _ _ i).trans hc), ?_⟩
    rw [runCommand_inContext]
    refine ⟨rfl, rfl, fun hi => ?_⟩
    rw [motorCommandOf_of_returns s hi] at hc
    cases hc
  | none =>
    cases i with
    | forward | right | backward | left => cases hc
    | pause | pauseChecksumFail | pauseBadOpcode | pauseBadMagnitude | dispatch => cases hc
    | reset =>
      obtain rfl := exec_reset_frame ht
      exact ⟨_, exec_reset_eq _, rfl, rfl, by simp⟩
    | push b =>
      exact ⟨_, (ringPush_inContext _ _ _ s b).trans (congrArg (inContextOf _ _ _) ht), rfl, rfl, by simp⟩
    | clear => cases ht; exact ⟨_, rfl, rfl, rfl, by simp⟩
    | sample => cases ht; exact ⟨_, rfl, rfl, rfl, by simp⟩
    | available => cases ht; exact ⟨_, rfl, rfl, rfl, fun _ => rfl⟩
    | pop => exact ⟨_, execPop_inContext _ _ _ ht, rfl, rfl, fun _ => rfl⟩
    | frameStep b => cases ht; exact ⟨_, congrArg Host.Outcome.next (parserStep_inContext _ _ _ s b), rfl, rfl, by simp⟩
    | parse =>
      exact ⟨_, (parseLoop_inContext _ _ _ s _).trans (congrArg (inContextOf _ _ _) ht), rfl, rfl, by simp⟩
    | validate => cases ht; exact ⟨_, rfl, rfl, rfl, fun _ => rfl⟩
    | cycle =>
      rw [← hphase rfl]
      exact ⟨_, execCycle_inContext _ _ ht, rfl, rfl, by simp⟩

/-! ### The reset state and the ports -/

/-- Settles O43. -/
theorem resetStateHoldsTheResetValues : Obligations.ResetStateHoldsTheResetValues := by
  intro c
  exact ⟨rfl, rfl, rfl, rfl, rfl, rfl, rfl, rfl, rfl, rfl, rfl⟩

/-- Settles O44. -/
theorem resetMeetsTheInvariants : Obligations.ResetMeetsTheInvariants := by
  intro c hc
  exact ⟨hc, .of_empty hc.1 rfl rfl rfl, ⟨Memory.wf_nil, nofun⟩, ⟨fun _ => rfl, fun _ => rfl, fun _ => rfl⟩,
    ⟨Nat.zero_le _, nofun, Nat.zero_le _⟩, .of_zero rfl rfl⟩

/-- Settles O55.  Under Lagged the difference fits the port, as it is at most the byte `count`. -/
theorem portsShowTheirRegisters : Obligations.PortsShowTheirRegisters := by
  intro s
  refine ⟨rfl, rfl, rfl, rfl, rfl, fun hv => ?_, fun hv => ?_⟩
  · simp [State.ports, consumerCount, hv]
  · have hbyte := s.count.isLt
    simp only [State.ports, consumerCount, hv, BitVec.toNat_ofNat]
    exact Nat.mod_eq_of_lt (by omega)

end Sys2Proof.Machine

/-! The memory family: what PUSH and POP answer under both views, the order in which bytes leave the ring, the storage,
and where the model stops (20_memory.md). -/

namespace Sys2Proof.Machine

/-! ### What PUSH and POP answer -/

section
variable {s : State} (b : Byte)

/-- PUSH refuses the byte on a buffer the producer sees full (40_ringbuffer_ops.md R90). -/
theorem exec_push_of_full (hf : producerCount s = s.cfg.capacity) : exec (.push b) s = .next { s with wAck := false } :=
  if_pos hf

/-- PUSH appends the byte to any other (40_ringbuffer_ops.md R90). -/
theorem exec_push_of_free (hf : producerCount s ≠ s.cfg.capacity) (hw : s.wr.toNat < s.cfg.capacity) :
    exec (.push b) s = .next { s with
      buf := Memory.write s.buf s.wr.toNat b, wr := nextIndex s.wr s, count := s.count + 1
      lagC := lagAfter s.lagC s, wAck := true } :=
  (if_neg hf).trans (if_pos hw)

/-- PUSH faults when `wr` names no cell (log entry 4). -/
theorem exec_push_of_no_cell (hf : producerCount s ≠ s.cfg.capacity) (hw : ¬ s.wr.toNat < s.cfg.capacity) :
    exec (.push b) s = .fault (.noSuchCell s.wr.toNat) :=
  (if_neg hf).trans (if_neg hw)

/-- POP returns None on a buffer the consumer sees empty (40_ringbuffer_ops.md R91). -/
theorem exec_pop_of_empty (hc : consumerCount s = 0) : exec .pop s = .next (s.setResult (.popped none)) := by
  simp [exec, execPop, ringPop, hc]

/-- POP returns the byte at `rd` of any other (40_ringbuffer_ops.md R91). -/
theorem exec_pop_of_unread (hc : consumerCount s ≠ 0) (hr : s.rd.toNat < s.cfg.capacity) :
    exec .pop s = .next ((ringDrop s).setResult (.popped (some (Memory.read s.buf s.rd.toNat)))) := by
  simp [exec, execPop, ringPop, readCell, hc, hr]

/-- POP faults when `rd` names no cell (log entry 4). -/
theorem exec_pop_of_no_cell (hc : consumerCount s ≠ 0) (hr : ¬ s.rd.toNat < s.cfg.capacity) :
    exec .pop s = .fault (.noSuchCell s.rd.toNat) := by
  simp [exec, execPop, ringPop, readCell, hc, hr]

end

/-! ### The two views of the count -/

section
variable {s : State} (hv : s.cfg.cdcView = .lagged)
include hv

theorem producerCount_of_lagged : producerCount s = s.count.toNat + s.lagP := by
  simp [producerCount, hv]

theorem consumerCount_of_lagged : consumerCount s = s.count.toNat - s.lagC := by
  simp [consumerCount, hv]

theorem lagAfter_of_lagged (lag : Nat) : lagAfter lag s = lag + 1 := by
  simp [lagAfter, hv]

/-- Under Lagged a SYNC step takes 1 from the lag of its side, and nothing from a lag of 0 (20_memory.md R64). -/
theorem syncLag_consumer_of_lagged : syncLag .consumer s = s.setLags (s.lagC - 1) s.lagP := by
  simp only [syncLag, hv]

theorem syncLag_producer_of_lagged : syncLag .producer s = s.setLags s.lagC (s.lagP - 1) := by
  simp only [syncLag, hv]

end

/-! ### The turns of a step -/

section
variable {s : State} {rest : List Input}

/-- The strobes of one instant run the operation they decode to (60_exceptions.md R155). -/
theorem takeTurn_strobes {S S' : BitVec 5} {d : Byte} {order : List Strobe} {i : Instr}
    (h : s.inputs = .strobes S d order :: rest) (hd : decodeStrobes order S d = some (i, S')) :
    takeTurn s = exec i (s.setInputs (if S' = 0 then rest else .strobes S' d order :: rest)) := by
  simp only [takeTurn, h, serveStrobes, hd]

theorem takeTurn_consumerTurn {k : Nat} (h : s.inputs = .consumerTurn k :: rest) :
    takeTurn s = consumerStep k (s.setInputs rest) := by
  simp only [takeTurn, h]

theorem takeTurn_sync {side : LagSide} (h : s.inputs = .sync side :: rest) :
    takeTurn s = .next (syncLag side (s.setInputs rest)) := by
  simp only [takeTurn, h]

/-- A consumer that parses finds the exit condition or takes one pass (41_framer_ops.md R102). -/
theorem consumerStep_of_parsing {k : Nat} (hp : s.phase = .parsing) :
    consumerStep k s = if parseDone s = true then .next (s.setPhase .tail) else parsePass s := by
  simp only [consumerStep, hp]

end

/-- Settles O7. -/
theorem stepRunsTheStartedOperation : Obligations.StepRunsTheStartedOperation := by
  intro s S S' d order rest i hs hi hd
  rw [step_of_supported hs]
  exact takeTurn_strobes hi hd

/-- Settles O9: POP and the pass answer by the same cell, and the pass hands no value to a caller. -/
theorem stepRunsPopThenFrameStep : Obligations.StepRunsPopThenFrameStep := by
  intro s k rest hs hi hp
  have hstep : step s = if parseDone s = true then .next ((s.setInputs rest).setPhase .tail)
      else parsePass (s.setInputs rest) := by
    rw [step_of_supported hs, takeTurn_consumerTurn hi]
    exact consumerStep_of_parsing hp
  refine ⟨fun hd => ?_, fun hc hn hr => ?_⟩
  · rw [hstep, if_pos (by simpa [parseDone] using hd)]
    rfl
  · have hd : parseDone s = false := parseDone_false_iff.mpr ⟨hc, hn⟩
    have hd' : parseDone (s.setInputs rest) = false := hd
    refine ⟨_, _, exec_pop_of_unread hc hr, rfl, ?_⟩
    rw [hstep, if_neg (by simp [hd])]
    rcases parsePass_cases hd' with ⟨-, hpass⟩ | ⟨hr', -⟩
    · exact hpass
    · exact absurd hr hr'

/-- Settles O17. -/
theorem laggedCrossing : Obligations.LaggedCrossing := by
  intro b s h hv
  obtain ⟨-, hC, -⟩ := h.supported
  rw [← producerCount_of_lagged hv, ← consumerCount_of_lagged hv, ← lagAfter_of_lagged hv s.lagC,
    ← lagAfter_of_lagged hv s.lagP]
  refine ⟨exec_push_of_full b, fun hf => ?_, exec_pop_of_empty, fun hc => ?_, fun rest hi => ?_, fun rest hi => ?_⟩
  · exact ⟨_, exec_push_of_free b hf h.ring.wr_lt, fun a => Memory.read_write h.storage.wf _ a b,
      nextIndex_toNat hC h.ring.wr_lt, h.count_add_one hf, rfl⟩
  · have hpos := count_pos_of_consumerCount hc
    have hsub := count_sub_one hc
    exact ⟨_, exec_pop_of_unread hc h.ring.rd_lt, rfl, nextIndex_toNat hC h.ring.rd_lt,
      show (s.count - 1).toNat + 1 = _ by omega, rfl⟩
  · rw [step_of_supported h.supported, takeTurn_sync hi, syncLag_consumer_of_lagged (by exact hv)]
    rfl
  · rw [step_of_supported h.supported, takeTurn_sync hi, syncLag_producer_of_lagged (by exact hv)]
    rfl

/-! ### Bytes leave in arrival order -/

section
variable {b : Byte} {rest : List RingOp} {s t : State} {r : RingTrace}

/-- An accepted PUSH puts its byte in front of the accepted ones. -/
theorem ringTrace_push_accepted (h : exec (.push b) s = .next t) (hack : t.wAck = true)
    (hr : ringTrace rest t = some r) :
    ringTrace (.push b :: rest) s = some { r with accepted := b :: r.accepted } := by
  simp [ringTrace, h, hack, hr]

/-- A refused PUSH leaves no trace. -/
theorem ringTrace_push_refused (h : exec (.push b) s = .next t) (hack : t.wAck = false)
    (hr : ringTrace rest t = some r) : ringTrace (.push b :: rest) s = some r := by
  simp [ringTrace, h, hack, hr]

/-- A successful POP puts its byte in front of the returned ones. -/
theorem ringTrace_pop_some (h : exec .pop s = .next t) (hres : t.result = .popped (some b))
    (hr : ringTrace rest t = some r) :
    ringTrace (.pop :: rest) s = some { r with returned := b :: r.returned } := by
  simp [ringTrace, h, hres, hr]

/-- A POP on the empty buffer leaves no trace. -/
theorem ringTrace_pop_none (h : exec .pop s = .next t) (hres : t.result = .popped none)
    (hr : ringTrace rest t = some r) : ringTrace (.pop :: rest) s = some r := by
  simp [ringTrace, h, hres, hr]

end

/-- Settles O19, by induction on the operations: each one adds a byte at one end of the
window, takes one from the other, or leaves it. -/
theorem bytesLeaveInArrivalOrder : Obligations.BytesLeaveInArrivalOrder := by
  intro ops
  induction ops with
  | nil => exact fun s _ => ⟨_, rfl, by simp⟩
  | cons op rest ih =>
    intro s h
    cases op with
    | push b =>
      by_cases hf : producerCount s = s.cfg.capacity
      · have hpush := exec_push_of_full b hf
        obtain ⟨r, hr, horder⟩ := ih _ (h.ringPush hpush)
        exact ⟨r, ringTrace_push_refused hpush rfl hr, horder⟩
      · have hpush := exec_push_of_free b hf h.ring.wr_lt
        obtain ⟨r, hr, horder⟩ := ih _ (h.ringPush hpush)
        refine ⟨_, ringTrace_push_accepted hpush rfl hr, ?_⟩
        obtain ⟨happend, -⟩ := (windowIsAQueue s _ h).1 b hpush
        rwa [happend rfl, List.append_assoc] at horder
    | pop =>
      by_cases hc : consumerCount s = 0
      · obtain ⟨r, hr, horder⟩ := ih _ (h.setResult (.popped none))
        exact ⟨r, ringTrace_pop_none (exec_pop_of_empty hc) rfl hr, horder⟩
      · obtain ⟨r, hr, horder⟩ := ih _ ((h.ringDrop hc).setResult (.popped (some (Memory.read s.buf s.rd.toNat))))
        refine ⟨_, ringTrace_pop_some (exec_pop_of_unread hc h.ring.rd_lt) rfl hr, ?_⟩
        rw [h.contents_eq_cons hc]
        exact congrArg (List.cons _) horder

/-! ### The storage -/

/-- Settles O49: PUSH alone writes a cell, and only where one exists. -/
theorem instructionsKeepTheStorage : Obligations.InstructionsKeepTheStorage := by
  intro i s t h ht
  obtain ⟨hbuf, -, -, -, -, -, -, -, -, -, hcfg, -, -, -⟩ := onlyTheirWritersChangeRegisters i s t ht
  by_cases hb : t.buf = s.buf
  · exact h.congr hcfg hb
  · obtain ⟨b, rfl⟩ := hbuf hb
    rcases ringPush_next ht with ⟨-, rfl⟩ | ⟨-, hw, rfl⟩
    · exact absurd rfl hb
    · exact h.write hw rfl rfl

/-! ### Where the model stops -/

section
variable {s : State}

/-- The successor of an index of the storage is one, whatever the capacity (20_memory.md R50). -/
theorem nextIndex_lt_capacity {a : Byte} (ha : a.toNat < s.cfg.capacity) :
    (nextIndex a s).toNat < s.cfg.capacity := by
  unfold nextIndex
  split
  · have : (a + 1).toNat ≤ a.toNat + 1 := by bv_omega
    omega
  · exact Nat.zero_lt_of_lt ha

/-- From an `rd` that names a cell every pass of PARSE finds its byte, so the loop answers. -/
theorem parseLoop_of_cell (n : Nat) (hr : s.rd.toNat < s.cfg.capacity) : ∃ t, parseLoop n s = .next t := by
  induction n generalizing s with
  | zero => exact ⟨s, rfl⟩
  | succ n ih =>
    unfold parseLoop
    cases hd : parseDone s with
    | true => exact ⟨s, rfl⟩
    | false =>
      rcases parsePass_cases hd with ⟨-, hpass⟩ | ⟨hr', -⟩
      · rw [hpass]
        exact ih (by simpa [ringDrop_eq] using nextIndex_lt_capacity hr)
      · exact absurd hr hr'

/-- PARSE answers, or its first POP finds no cell (41_framer_ops.md R102; log entry 4). -/
theorem execParse_cases (s : State) :
    ((parseDone s = true ∨ s.rd.toNat < s.cfg.capacity) ∧ ∃ t, execParse s = .next t) ∨
    (parseDone s = false ∧ ¬ s.rd.toNat < s.cfg.capacity ∧ execParse s = .fault (.noSuchCell s.rd.toNat)) := by
  by_cases hr : s.rd.toNat < s.cfg.capacity
  · exact .inl ⟨.inr hr, parseLoop_of_cell _ hr⟩
  · unfold execParse
    cases hd : parseDone s with
    | true => exact .inl ⟨.inl rfl, s, by cases consumerCount s <;> simp [parseLoop, hd]⟩
    | false =>
      obtain ⟨hc, -⟩ := parseDone_false_iff.mp hd
      obtain ⟨n, hn⟩ := Nat.exists_eq_succ_of_ne_zero hc
      rcases parsePass_cases hd with ⟨hr', -⟩ | ⟨-, hpass⟩
      · exact absurd hr' hr
      · exact .inr ⟨rfl, hr, by simp [hn, parseLoop, hd, hpass]⟩

/-- CYCLE answers, or it is a PARSE that does not (44_control_cycle.md R135). -/
theorem execCycle_cases (s : State) :
    ((s.phase ≠ .idle ∨ parseDone s = true ∨ s.rd.toNat < s.cfg.capacity) ∧ ∃ t, execCycle s = .next t) ∨
    (s.phase = .idle ∧ parseDone s = false ∧ ¬ s.rd.toNat < s.cfg.capacity ∧
      execCycle s = .fault (.noSuchCell s.rd.toNat)) := by
  unfold execCycle
  by_cases hp : s.phase = .idle
  · rcases execParse_cases s with ⟨hok, t, ht⟩ | ⟨hd, hr, hstop⟩
    · exact .inl ⟨.inr hok, cycleTail t, by rw [if_pos hp, ht, andThen_next]⟩
    · exact .inr ⟨hp, hd, hr, by rw [if_pos hp, hstop, andThen_fault]⟩
  · exact .inl ⟨.inl hp, s, if_neg hp⟩

/-! #### Exactly when each instruction faults -/

variable {f : Fault}

theorem exec_push_fault_iff {b : Byte} : exec (.push b) s = .fault f ↔
    producerCount s ≠ s.cfg.capacity ∧ s.cfg.capacity ≤ s.wr.toNat ∧ f = .noSuchCell s.wr.toNat := by
  rw [← Nat.not_lt]
  by_cases hf : producerCount s = s.cfg.capacity
  · simp [exec_push_of_full b hf, hf]
  · by_cases hw : s.wr.toNat < s.cfg.capacity
    · simp [exec_push_of_free b hf hw, hw]
    · simp [exec_push_of_no_cell b hf hw, hf, hw, eq_comm]

theorem exec_pop_fault_iff : exec .pop s = .fault f ↔
    consumerCount s ≠ 0 ∧ s.cfg.capacity ≤ s.rd.toNat ∧ f = .noSuchCell s.rd.toNat := by
  rw [← Nat.not_lt]
  by_cases hc : consumerCount s = 0
  · simp [exec_pop_of_empty hc, hc]
  · by_cases hr : s.rd.toNat < s.cfg.capacity
    · simp [exec_pop_of_unread hc hr, hr]
    · simp [exec_pop_of_no_cell hc hr, hc, hr, eq_comm]

theorem exec_parse_fault_iff : exec .parse s = .fault f ↔
    parseDone s = false ∧ s.cfg.capacity ≤ s.rd.toNat ∧ f = .noSuchCell s.rd.toNat := by
  rw [← Nat.not_lt, show exec .parse s = execParse s from rfl]
  rcases execParse_cases s with ⟨hok, t, ht⟩ | ⟨hd, hr, hstop⟩
  · rcases hok with hd | hr <;> simp [*]
  · simp [hstop, hd, hr, eq_comm]

theorem exec_cycle_fault_iff : exec .cycle s = .fault f ↔
    s.phase = .idle ∧ parseDone s = false ∧ s.cfg.capacity ≤ s.rd.toNat ∧ f = .noSuchCell s.rd.toNat := by
  rw [← Nat.not_lt, show exec .cycle s = execCycle s from rfl]
  rcases execCycle_cases s with ⟨hok, t, ht⟩ | ⟨hp, hd, hr, hstop⟩
  · rcases hok with hp | hd | hr <;> simp [*]
  · simp [hstop, hp, hd, hr, eq_comm]

/-! #### No other stop -/

/-- The instructions that look up a cell of the storage. -/
def LooksUpCell (i : Instr) : Prop := (∃ b, i = .push b) ∨ i = .pop ∨ i = .parse ∨ i = .cycle

/-- Every other instruction gives a next state from every state. -/
theorem exec_of_not_looksUpCell {i : Instr} (h : ¬ LooksUpCell i) : ∃ t, exec i s = .next t := by
  cases hc : motorCommandOf s i with
  | some c => exact ⟨_, exec_of_motorCommandOf hc⟩
  | none =>
    cases i with
    | forward | right | backward | left => cases hc
    | pause | pauseChecksumFail | pauseBadOpcode | pauseBadMagnitude | dispatch => cases hc
    | push | pop | parse | cycle => exact absurd (by simp [LooksUpCell]) h
    | reset | clear | sample | available | frameStep | validate => exact ⟨_, rfl⟩

/-- An outcome on `s` that is a next state, or a fault on an index of `s` that names no cell (20_memory.md R50). -/
def StopsOnMissingCellOnly (s : State) (o : StepResult) : Prop :=
  (∃ t, o = .next t) ∨
  (s.cfg.capacity ≤ s.wr.toNat ∧ o = .fault (.noSuchCell s.wr.toNat)) ∨
  (s.cfg.capacity ≤ s.rd.toNat ∧ o = .fault (.noSuchCell s.rd.toNat))

theorem StopsOnMissingCellOnly.next (s t : State) : StopsOnMissingCellOnly s (.next t) := .inl ⟨t, rfl⟩

theorem StopsOnMissingCellOnly.ne_refused {o : StepResult} (h : StopsOnMissingCellOnly s o) (r : Refusal) :
    o ≠ .refused r := by
  rcases h with ⟨t, rfl⟩ | ⟨-, rfl⟩ | ⟨-, rfl⟩ <;> exact nofun

theorem StopsOnMissingCellOnly.of_fault {o : StepResult} (h : StopsOnMissingCellOnly s o) (ho : o = .fault f) :
    s.cfg.capacity ≤ s.wr.toNat ∧ f = .noSuchCell s.wr.toNat ∨
    s.cfg.capacity ≤ s.rd.toNat ∧ f = .noSuchCell s.rd.toNat := by
  subst ho
  simpa [StopsOnMissingCellOnly] using h

/-- Every instruction stops on a missing cell only. -/
theorem exec_stops (i : Instr) (s : State) : StopsOnMissingCellOnly s (exec i s) := by
  by_cases hi : LooksUpCell i
  · rcases hi with ⟨b, rfl⟩ | rfl | rfl | rfl
    · rcases ringPush_cases b s with ⟨-, h⟩ | ⟨-, -, h⟩ | ⟨-, hw, h⟩
      · exact .inl ⟨_, h⟩
      · exact .inl ⟨_, h⟩
      · exact .inr (.inl ⟨Nat.not_lt.mp hw, h⟩)
    · by_cases hc : consumerCount s = 0
      · exact .inl ⟨_, exec_pop_of_empty hc⟩
      · by_cases hr : s.rd.toNat < s.cfg.capacity
        · exact .inl ⟨_, exec_pop_of_unread hc hr⟩
        · exact .inr (.inr ⟨Nat.not_lt.mp hr, exec_pop_of_no_cell hc hr⟩)
    · rcases execParse_cases s with ⟨-, h⟩ | ⟨-, hr, h⟩
      · exact .inl h
      · exact .inr (.inr ⟨Nat.not_lt.mp hr, h⟩)
    · rcases execCycle_cases s with ⟨-, h⟩ | ⟨-, -, hr, h⟩
      · exact .inl h
      · exact .inr (.inr ⟨Nat.not_lt.mp hr, h⟩)
  · exact .inl (exec_of_not_looksUpCell hi)

/-- The tail of a CYCLE never stops: a frame decodes to a motor command (30_encoding.md R79). -/
theorem tailTurn_next (s : State) : ∃ t, tailTurn s = .next t := by
  obtain ⟨c, hc⟩ := motorCommandOf_decodePayload s.x0 s.x1 s.x2 s
  unfold tailTurn
  rw [exec_of_motorCommandOf hc, andThen_next]
  split_ifs <;> exact ⟨_, rfl⟩

/-- A step of the consumer stops on a missing cell only, in a pass of PARSE. -/
theorem consumerStep_stops (k : Nat) (s : State) : StopsOnMissingCellOnly s (consumerStep k s) := by
  cases hp : s.phase with
  | idle => simpa only [consumerStep, hp] using .next s s
  | tail => simpa only [consumerStep, hp] using .inl (tailTurn_next s)
  | writing a b d left => simpa only [consumerStep, hp] using .next s _
  | parsing =>
    rw [consumerStep_of_parsing hp]
    cases hd : parseDone s with
    | true => exact .next s _
    | false =>
      rcases parsePass_cases hd with ⟨-, h⟩ | ⟨hr, h⟩
      · exact .inl ⟨_, h⟩
      · exact .inr (.inr ⟨Nat.not_lt.mp hr, h⟩)

/-- Every turn of the schedule stops on a missing cell only. -/
theorem takeTurn_stops (s : State) : StopsOnMissingCellOnly s (takeTurn s) := by
  unfold takeTurn
  split
  case h_1 =>
    unfold quietTurn
    split_ifs
    · exact .next s _
    · exact .next s _
    · exact consumerStep_stops 0 s
  case h_2 S d order rest _ =>
    unfold serveStrobes
    split
    · exact exec_stops _ (s.setInputs _)
    · exact .next s _
  case h_3 => exact .next s _
  case h_4 k rest _ => exact consumerStep_stops k (s.setInputs rest)
  case h_5 => exact .next s _
  case h_6 => exact .next s _

theorem step_refused_iff {r : Refusal} : step s = .refused r ↔ ¬ s.cfg.Supported ∧ r = .unsupportedParameters := by
  by_cases hs : s.cfg.Supported
  · rw [step_of_supported hs]
    exact iff_of_false ((takeTurn_stops s).ne_refused r) fun ⟨hn, _⟩ => hn hs
  · rw [show step s = .refused .unsupportedParameters from if_neg hs]
    simp [hs, eq_comm]

theorem supported_of_step_fault (h : step s = .fault f) : s.cfg.Supported := by
  by_contra hs
  rw [show step s = .refused .unsupportedParameters from if_neg hs] at h
  cases h

end

/-- Settles O50. -/
theorem whereTheModelStops : Obligations.WhereTheModelStops := by
  intro s f r
  refine ⟨fun _ => exec_push_fault_iff, exec_pop_fault_iff, ?parse, ?cycle, fun i h => ?others,
    fun i => (exec_stops i s).ne_refused r, step_refused_iff, fun h => ?step⟩
  case parse => simp only [exec_parse_fault_iff, parseDone_false_iff, and_assoc, and_left_comm]
  case cycle => simp only [exec_cycle_fault_iff, parseDone_false_iff, and_assoc, and_left_comm]
  case others =>
    by_contra hi
    obtain ⟨t, ht⟩ := exec_of_not_looksUpCell (s := s) hi
    cases ht.symm.trans h
  case step =>
    have hs := supported_of_step_fault h
    rw [step_of_supported hs] at h
    exact ⟨hs, (takeTurn_stops s).of_fault h⟩

end Sys2Proof.Machine

/-! The encoding family: the payload decoder and the encoder undo each other, and what the row a completed frame selects
does to the motor (30_encoding.md). -/

namespace Sys2Proof.Machine

/-! ### The row each test of R79 selects -/

section
variable {op m c : Byte}

theorem isMoveOpcode_iff_mem : isMoveOpcode op = true ↔ op ∈ [1, 2, 3, 4] := by
  simp [isMoveOpcode_iff]

theorem isMoveOpcode_false_iff_not_mem : isMoveOpcode op = false ↔ op ∉ [1, 2, 3, 4] := by
  rw [← isMoveOpcode_iff_mem, Bool.not_eq_true]

/-- Test 1, the checksum. -/
theorem decodePayload_of_checksum_ne (h : op ^^^ m ≠ c) : decodePayload op m c = .pauseChecksumFail op m c :=
  if_pos h

theorem decodePayload_of_checksum_eq (h : op ^^^ m = c) :
    decodePayload op m c =
      if isMoveOpcode op = false then if op = 0 ∧ m = 0 then .pause else .pauseBadOpcode op m
      else if magnitudeInRange m = false then .pauseBadMagnitude op m
      else decodeMove op m :=
  if_neg (not_not.mpr h)

/-- Test 2, the opcode; `00 00 00` is the canonical PAUSE (R85, log entry 17). -/
theorem decodePayload_of_badOpcode (h : op ^^^ m = c) (ho : isMoveOpcode op = false) :
    decodePayload op m c = if op = 0 ∧ m = 0 then .pause else .pauseBadOpcode op m := by
  rw [decodePayload_of_checksum_eq h, if_pos ho]

/-- Test 3, the magnitude. -/
theorem decodePayload_of_badMagnitude (h : op ^^^ m = c) (ho : isMoveOpcode op = true)
    (hm : magnitudeInRange m = false) : decodePayload op m c = .pauseBadMagnitude op m := by
  rw [decodePayload_of_checksum_eq h, if_neg (ne_false_of_eq_true ho), if_pos hm]

/-- Test 4: what is left is a Move. -/
theorem decodePayload_of_move (h : op ^^^ m = c) (ho : isMoveOpcode op = true) (hm : magnitudeInRange m = true) :
    decodePayload op m c = decodeMove op m := by
  rw [decodePayload_of_checksum_eq h, if_neg (ne_false_of_eq_true ho), if_neg (ne_false_of_eq_true hm)]

/-- The constraint of the row PAUSE.bad_opcode (log entry 17). -/
theorem wellFormed_pauseBadOpcode_iff :
    wellFormed (.pauseBadOpcode op m) = true ↔ isMoveOpcode op = false ∧ ¬ (op = 0 ∧ m = 0) := by
  simp [wellFormed, imp_iff_not_or]

/-- The constraint of the row PAUSE.bad_magnitude. -/
theorem wellFormed_pauseBadMagnitude_iff :
    wellFormed (.pauseBadMagnitude op m) = true ↔ isMoveOpcode op = true ∧ magnitudeInRange m = false := by
  simp [wellFormed]

end

/-! ### Decoding what the encoder gives -/

/-- Whatever follows a marker and three bytes, they are a frame (30_encoding.md R70). -/
theorem decode_frame (op m c : Byte) (rest : List Byte) :
    decode ([Config.startMarker, op, m, c] ++ rest) = .ok (decodePayload op m c, rest) := rfl

/-- A word with one strobe asserted is the operation that strobe starts (30_encoding.md R83). -/
theorem decode_strobeBytes (l : Strobe) (d : Byte) (rest : List Byte) :
    decode (strobeBytes l d ++ rest) = .ok (l.operation d, rest) := by
  cases l <;> rfl

/-- The bytes of a well-formed instruction are a frame whose payload selects its row, or the word of the strobe that
starts it. -/
theorem encode_cases {i : Instr} {bytes : List Byte} (hwf : wellFormed i = true) (h : encode i = some bytes) :
    (∃ op m c, bytes = [Config.startMarker, op, m, c] ∧ decodePayload op m c = i) ∨
    ∃ l d, bytes = strobeBytes l d ∧ l.operation d = i := by
  cases i with
  | forward | right | backward | left =>
    cases h
    exact .inl ⟨_, _, _, rfl, decodePayload_of_move rfl rfl hwf⟩
  | pause =>
    cases h
    exact .inl ⟨0, 0, _, rfl, rfl⟩
  | pauseChecksumFail op m c =>
    cases h
    exact .inl ⟨op, m, c, rfl, decodePayload_of_checksum_ne (bne_iff_ne.mp hwf)⟩
  | pauseBadOpcode op m =>
    cases h
    obtain ⟨ho, h0⟩ := wellFormed_pauseBadOpcode_iff.mp hwf
    exact .inl ⟨op, m, _, rfl, (decodePayload_of_badOpcode rfl ho).trans (if_neg h0)⟩
  | pauseBadMagnitude op m =>
    cases h
    obtain ⟨ho, hm⟩ := wellFormed_pauseBadMagnitude_iff.mp hwf
    exact .inl ⟨op, m, _, rfl, decodePayload_of_badMagnitude rfl ho hm⟩
  | reset => cases h; exact .inr ⟨.rst, 0, rfl, rfl⟩
  | push b => cases h; exact .inr ⟨.wValid, b, rfl, rfl⟩
  | cycle => cases h; exact .inr ⟨.cTick, 0, rfl, rfl⟩
  | clear => cases h; exact .inr ⟨.clr, 0, rfl, rfl⟩
  | sample => cases h; exact .inr ⟨.pTick, 0, rfl, rfl⟩
  | available | pop | frameStep | parse | validate | dispatch => cases h

/-- Settles O1. -/
theorem decodeInvertsEncode : Obligations.DecodeInvertsEncode := by
  intro i bytes rest hwf h
  rcases encode_cases hwf h with ⟨op, m, c, rfl, rfl⟩ | ⟨l, d, rfl, rfl⟩
  · exact decode_frame op m c rest
  · exact decode_strobeBytes l d rest

/-! ### Encoding what the payload decoder gives -/

/-- No bit of a frame is dropped (30_encoding.md R80): the row's operands give all three payload bytes back. -/
theorem encode_decodePayload (op m c : Byte) :
    encode (decodePayload op m c) = some [Config.startMarker, op, m, c] := by
  rcases decodePayload_cases op m c with
    ⟨-, h⟩ | ⟨rfl, -, rfl, rfl, h⟩ | ⟨rfl, -, -, h⟩ | ⟨rfl, -, -, h⟩ |
    ⟨rfl, -, ⟨rfl, h⟩ | ⟨rfl, h⟩ | ⟨rfl, h⟩ | ⟨rfl, h⟩⟩ <;>
  exact h ▸ rfl

/-- The test that selects a row is the constraint of that row (30_encoding.md R79). -/
theorem wellFormed_decodePayload (op m c : Byte) : wellFormed (decodePayload op m c) = true := by
  rcases decodePayload_cases op m c with
    ⟨hc, h⟩ | ⟨-, -, -, -, h⟩ | ⟨-, ho, h0, h⟩ | ⟨-, ho, hm, h⟩ | ⟨-, hm, hmove⟩
  case inl => exact h ▸ bne_iff_ne.mpr hc
  case inr.inl => exact h ▸ rfl
  case inr.inr.inl => exact h ▸ wellFormed_pauseBadOpcode_iff.mpr ⟨ho, h0⟩
  case inr.inr.inr.inl => exact h ▸ wellFormed_pauseBadMagnitude_iff.mpr ⟨ho, magnitudeInRange_false_iff.mpr hm⟩
  case inr.inr.inr.inr =>
    have hm' := magnitudeInRange_iff.mpr hm
    rcases hmove with ⟨-, h⟩ | ⟨-, h⟩ | ⟨-, h⟩ | ⟨-, h⟩ <;> exact h ▸ hm'

/-- Settles O2. -/
theorem encodeInvertsDecodePayload : Obligations.EncodeInvertsDecodePayload :=
  fun op m c => ⟨encode_decodePayload op m c, wellFormed_decodePayload op m c⟩

/-! ### What the selected row does to the motor -/

section
variable {i : Instr} {s : State}

/-- An instruction whose command is invalid pauses, whatever the cause (60_exceptions.md R149). -/
theorem exec_of_invalid {cause : PauseCause} (h : motorCommandOf s i = some (.invalid cause)) :
    exec i s = .next { s with dirA := false, dirB := true, duty := 0 } :=
  exec_of_motorCommandOf h

/-- An instruction whose command has a direction and a magnitude 0..100 sets the pins of that direction and that duty
(30_encoding.md R78). -/
theorem exec_of_commandOf {d : Direction} {m : Byte} (h : motorCommandOf s i = some (commandOf d m))
    (hm : m.toNat ≤ 100) : exec i s = .next { s with dirA := d.pinA, dirB := d.pinB, duty := m } := by
  rw [exec_of_motorCommandOf h, runCommand_commandOf, if_pos hm]

end

/-- Settles O3. -/
theorem completedFrameOutcome : Obligations.CompletedFrameOutcome := by
  intro op m c s
  refine ⟨fun hc => ?checksum, fun hc ho => ?opcode, fun hc ho hm => ?magnitude, fun hc hm => ?move⟩
  case checksum =>
    rw [decodePayload_of_checksum_ne hc]
    exact ⟨rfl, exec_of_invalid rfl⟩
  case opcode =>
    rw [decodePayload_of_badOpcode hc (isMoveOpcode_false_iff_not_mem.mpr ho)]
    refine ⟨rfl, ?_⟩
    split <;> exact exec_of_invalid rfl
  case magnitude =>
    rw [decodePayload_of_badMagnitude hc (isMoveOpcode_iff_mem.mpr ho) (magnitudeInRange_false_iff.mpr hm)]
    exact ⟨rfl, exec_of_invalid rfl⟩
  case move =>
    have hmove (ho : isMoveOpcode op = true) : decodePayload op m c = decodeMove op m :=
      decodePayload_of_move hc ho (magnitudeInRange_iff.mpr hm)
    refine ⟨?_, ?_, ?_, ?_⟩ <;> rintro rfl <;> rw [hmove rfl]
    · exact ⟨rfl, exec_of_commandOf (d := .forward) rfl hm⟩
    · exact ⟨rfl, exec_of_commandOf (d := .right) rfl hm⟩
    · exact ⟨rfl, exec_of_commandOf (d := .backward) rfl hm⟩
    · exact ⟨rfl, exec_of_commandOf (d := .left) rfl hm⟩

/-! ### A Move frame holds no marker -/

/-- An operand below 8 reaches bits 2..0 only. -/
theorem toNat_xor_div_eight {op m : Byte} (h : op.toNat < 8) : (op ^^^ m).toNat / 8 = m.toNat / 8 := by
  rw [BitVec.toNat_xor, Nat.xor_div_two_pow (n := 3), Nat.div_eq_of_lt h, Nat.zero_xor]

theorem ne_startMarker_of_toNat_lt {b : Byte} (h : b.toNat < 0xFF) : b ≠ Config.startMarker := by
  rintro rfl
  exact absurd h (by decide)

/-- Settles O5.  The opcode leaves the upper five bits of a magnitude at most `0x64` alone, so the checksum is at most
`0x67`. -/
theorem moveFrameHoldsNoMarker : Obligations.MoveFrameHoldsNoMarker := by
  intro op m ho hm
  have hop : op.toNat ≤ 4 := by
    rcases isMoveOpcode_iff.mp ho with rfl | rfl | rfl | rfl <;> decide
  have hmag : m.toNat ≤ 100 := magnitudeInRange_iff.mp hm
  have hsum : (op ^^^ m).toNat ≤ 0x67 := by
    have := toNat_xor_div_eight (m := m) (show op.toNat < 8 by omega)
    omega
  exact ⟨hop, hmag, hsum, ne_startMarker_of_toNat_lt (by omega), ne_startMarker_of_toNat_lt (by omega),
    ne_startMarker_of_toNat_lt (by omega)⟩

/-! ### DISPATCH against the decoder -/

/-- A magnitude above 100 makes the command invalid, whatever the direction (60_exceptions.md R151). -/
theorem commandOf_of_gt (d : Direction) {m : Byte} (hm : 100 < m.toNat) : commandOf d m = .invalid .badMagnitude := by
  simp [commandOf, dutyOperand, Config.dutyMax, Nat.not_le.mpr hm]

/-- DISPATCH's opcode test is the decoder's (30_encoding.md R78). -/
theorem directionOf_of_badOpcode {op : Byte} (ho : isMoveOpcode op = false) : directionOf op = none := by
  obtain ⟨h1, h2, h3, h4⟩ := isMoveOpcode_false_iff.mp ho
  unfold directionOf
  rw [if_neg h1, if_neg h2, if_neg h3, if_neg h4]

theorem motorCommand_of_badOpcode {op : Byte} (m : Byte) (ho : isMoveOpcode op = false) :
    motorCommand op m = .invalid .badOpcode := by
  unfold motorCommand
  rw [directionOf_of_badOpcode ho]

/-- With a Move opcode, DISPATCH's magnitude test is the decoder's (30_encoding.md R77). -/
theorem motorCommand_of_badMagnitude {op m : Byte} (ho : isMoveOpcode op = true) (hm : 100 < m.toNat) :
    motorCommand op m = .invalid .badMagnitude := by
  rcases isMoveOpcode_iff.mp ho with rfl | rfl | rfl | rfl <;> exact commandOf_of_gt _ hm

/-- On a valid checksum the decoded row has the command DISPATCH reads from the payload. -/
theorem motorCommandOf_decodePayload_eq {op m c : Byte} (hc : op ^^^ m = c) (s : State) :
    motorCommandOf s (decodePayload op m c) = some (motorCommand op m) := by
  rcases decodePayload_cases op m c with
    ⟨hne, -⟩ | ⟨-, ho, -, -, h⟩ | ⟨-, ho, -, h⟩ | ⟨-, ho, hm, h⟩ | ⟨-, -, hmove⟩
  case inl => exact absurd hc hne
  case inr.inl => rw [h, motorCommand_of_badOpcode m ho]; rfl
  case inr.inr.inl => rw [h, motorCommand_of_badOpcode m ho]; rfl
  case inr.inr.inr.inl => rw [h, motorCommand_of_badMagnitude ho hm]; rfl
  case inr.inr.inr.inr => rcases hmove with ⟨rfl, h⟩ | ⟨rfl, h⟩ | ⟨rfl, h⟩ | ⟨rfl, h⟩ <;> exact h ▸ rfl

/-- Settles O31: both run the same motor command. -/
theorem dispatchAgreesWithDecoding : Obligations.DispatchAgreesWithDecoding := by
  intro s hc
  rw [exec_of_motorCommandOf (motorCommandOf_decodePayload_eq hc s)]
  exact exec_of_motorCommandOf rfl

/-! ### Words of the spec -/

/-- A table word that holds the bytes of a well-formed instruction decodes to it. -/
theorem decodeTableWord_of_encode {i : Instr} {nbits w : Nat} (hwf : wellFormed i = true)
    (h : encode i = some (tableBytes nbits w)) : decodeTableWord nbits w = some i := by
  have hd := decodeInvertsEncode i _ [] hwf h
  rw [List.append_nil] at hd
  simp only [decodeTableWord, hd]

/-- Settles O4: each word holds the bytes of its instruction. -/
theorem specWordsDecode : Obligations.SpecWordsDecode := by
  refine ⟨?_, ?_, ?_, ?_, ?_, ?_, ?_, ?_, ?_, ?_, ?_, ?_, ?_⟩ <;>
  exact decodeTableWord_of_encode (by decide) (by decide)

end Sys2Proof.Machine

/-! The ring buffer family: what PUSH, POP, AVAILABLE and CLEAR do, the queue and integer laws of a run of them
(40_ringbuffer_ops.md), and the turns of a step that run no strobe and no frame. -/

namespace Sys2Proof.Machine

/-! ### The count under Immediate -/

section
variable {s : State} (hv : s.cfg.cdcView = .immediate)
include hv

theorem producerCount_of_immediate : producerCount s = s.count.toNat := by
  simp only [producerCount, hv]

theorem consumerCount_of_immediate : consumerCount s = s.count.toNat := by
  simp only [consumerCount, hv]

theorem lagAfter_of_immediate (lag : Nat) : lagAfter lag s = lag := by
  simp only [lagAfter, hv]

/-- Under Immediate there is no lag to shorten (20_memory.md R64). -/
theorem syncLag_of_immediate (side : LagSide) : syncLag side s = s := by
  simp only [syncLag, hv]

end

/-! ### One operation -/

/-- A POP that returns a byte takes 1 from a count that is not 0 (40_ringbuffer_ops.md R91). -/
theorem count_sub_one_add_one {s : State} (hc : consumerCount s ≠ 0) : (s.count - 1).toNat + 1 = s.count.toNat := by
  rw [count_sub_one hc, Nat.sub_add_cancel (count_pos_of_consumerCount hc)]

/-- Settles O13. -/
theorem pushAppendsOrRefuses : Obligations.PushAppendsOrRefuses := by
  intro b s h hv
  obtain ⟨-, hC, -⟩ := h.supported
  have hfull := producerCount_of_immediate hv
  refine ⟨fun hf => exec_push_of_full b (hfull.trans hf), fun hf => ?_⟩
  rw [← hfull] at hf
  have hpush := exec_push_of_free b hf h.ring.wr_lt
  rw [lagAfter_of_immediate hv] at hpush
  exact ⟨_, hpush, fun a => Memory.read_write h.storage.wf _ a b, nextIndex_toNat hC h.ring.wr_lt,
    h.count_add_one hf, rfl⟩

/-- Settles O14. -/
theorem popReturnsTheOldestByte : Obligations.PopReturnsTheOldestByte := by
  intro s h hv
  obtain ⟨-, hC, -⟩ := h.supported
  have hunread := consumerCount_of_immediate hv
  refine ⟨fun hc => exec_pop_of_empty (hunread.trans hc), fun hc => ?_⟩
  rw [← hunread] at hc
  have hpop := exec_pop_of_unread hc h.ring.rd_lt
  rw [ringDrop_eq, lagAfter_of_immediate hv] at hpop
  exact ⟨_, hpop, rfl, nextIndex_toNat hC h.ring.rd_lt, count_sub_one_add_one hc, rfl⟩

/-- AVAILABLE returns what the port `avail` shows (40_ringbuffer_ops.md R92). -/
theorem exec_available_eq (s : State) : exec .available s = .next { s with result := .unread s.ports.avail } := rfl

/-- Settles O15, from what the port `avail` shows. -/
theorem availableReportsUnreadBytes : Obligations.AvailableReportsUnreadBytes := by
  intro s
  obtain ⟨-, -, -, -, -, himm, hlag⟩ := portsShowTheirRegisters s
  refine ⟨fun hv => ⟨?_, himm hv⟩, fun hv => ⟨s.ports.avail, hlag hv, exec_available_eq s, rfl⟩⟩
  rw [exec_available_eq, himm hv]

/-- Settles O16. -/
theorem clearEmptiesTheRing : Obligations.ClearEmptiesTheRing :=
  fun s => congrArg Host.Outcome.next (ringClear_eq s)

/-- Settles O57: each of the three writes the returned value alone. -/
theorem readsChangeNoState : Obligations.ReadsChangeNoState := by
  intro s
  have hkeep (r : OpResult) : (s.setResult r).toRegisters = s.toRegisters ∧ (s.setResult r).toLags = s.toLags :=
    ⟨s.setResult_toRegisters r, s.setResult_toLags r⟩
  exact ⟨⟨_, rfl, hkeep _⟩, ⟨_, rfl, hkeep _⟩, fun hc => ⟨_, exec_pop_of_empty hc, hkeep _⟩⟩

/-! ### Runs of PUSHes and POPs -/

/-- One trace after another: the bytes of the first come first. -/
def RingTrace.append (r r' : RingTrace) : RingTrace :=
  ⟨r.accepted ++ r'.accepted, r.returned ++ r'.returned, r'.final⟩

/-- A run in two parts is the run of the first, then the run of the second from where the first ends. -/
theorem ringTrace_append {ops ops' : List RingOp} {s : State} {r r' : RingTrace} (h : ringTrace ops s = some r)
    (h' : ringTrace ops' r.final = some r') : ringTrace (ops ++ ops') s = some (r.append r') := by
  induction ops generalizing s r with
  | nil =>
    cases h
    exact h'
  | cons op rest ih =>
    cases op with
    | push b =>
      cases hx : exec (.push b) s <;> simp only [ringTrace, hx, Option.map_eq_some_iff, reduceCtorEq] at h
      obtain ⟨q, hq, rfl⟩ := h
      simp only [List.cons_append, ringTrace, hx, ih hq h', Option.map_some]
      split <;> simp [RingTrace.append, *]
    | pop =>
      cases hx : exec .pop s <;> simp only [ringTrace, hx, Option.map_eq_some_iff, reduceCtorEq] at h
      obtain ⟨q, hq, rfl⟩ := h
      simp only [List.cons_append, ringTrace, hx, ih hq h', Option.map_some]
      simp [RingTrace.append]

@[simp] theorem State.contents_length (s : State) : s.contents.length = s.count.toNat := by
  simp [State.contents, State.window]

/-- PUSHes that find room for all their bytes append them in order (40_ringbuffer_ops.md R95). -/
theorem State.Inv.ringTrace_pushes {bs : List Byte} {s : State} (h : s.Inv) (hv : s.cfg.cdcView = .immediate)
    (hroom : s.count.toNat + bs.length ≤ s.cfg.capacity) :
    ∃ t, t.Inv ∧ t.cfg = s.cfg ∧ t.contents = s.contents ++ bs ∧
      ringTrace (bs.map .push) s = some ⟨bs, [], t⟩ := by
  induction bs generalizing s with
  | nil => exact ⟨s, h, rfl, (List.append_nil _).symm, rfl⟩
  | cons b bs ih =>
    rw [List.length_cons] at hroom
    have hf : producerCount s ≠ s.cfg.capacity := by
      rw [producerCount_of_immediate hv]
      omega
    have hpush := exec_push_of_free b hf h.ring.wr_lt
    have hadd := h.count_add_one hf
    obtain ⟨happend, -⟩ := (windowIsAQueue s _ h).1 b hpush
    obtain ⟨t, ht, hcfg, hcontents, htrace⟩ := ih (h.ringPush hpush) hv (by simp only [hadd]; omega)
    refine ⟨t, ht, hcfg, ?_, ringTrace_push_accepted hpush rfl htrace⟩
    rw [hcontents, happend rfl, List.append_assoc, List.singleton_append]

/-- As many POPs as there are unread bytes return them in order (40_ringbuffer_ops.md R95). -/
theorem State.Inv.ringTrace_pops {bs : List Byte} {s : State} (h : s.Inv) (hv : s.cfg.cdcView = .immediate)
    (hbs : s.contents = bs) :
    ∃ t, t.Inv ∧ t.cfg = s.cfg ∧ t.contents = [] ∧
      ringTrace (List.replicate bs.length .pop) s = some ⟨[], bs, t⟩ := by
  induction bs generalizing s with
  | nil => exact ⟨s, h, rfl, hbs, rfl⟩
  | cons b bs ih =>
    have hc : consumerCount s ≠ 0 := by
      rw [consumerCount_of_immediate hv, ← s.contents_length, hbs]
      exact Nat.succ_ne_zero _
    obtain ⟨rfl, hrest⟩ := List.cons.inj ((h.contents_eq_cons hc).symm.trans hbs)
    obtain ⟨t, ht, hcfg, hempty, htrace⟩ :=
      ih ((h.ringDrop hc).setResult (.popped (some (Memory.read s.buf s.rd.toNat)))) hv hrest
    exact ⟨t, ht, hcfg, hempty, ringTrace_pop_some (exec_pop_of_unread hc h.ring.rd_lt) rfl htrace⟩

/-- Settles O20: the PUSHes fill the window, the POPs drain it, and the last POP finds it empty. -/
theorem pushedBytesPopInOrder : Obligations.PushedBytesPopInOrder := by
  intro bs s h hv hcount hroom
  have hempty : s.contents = [] := List.eq_nil_of_length_eq_zero (by simp [hcount])
  obtain ⟨t, ht, hcfg, hfilled, hpushes⟩ := h.ringTrace_pushes (bs := bs) hv (by simpa [hcount] using hroom)
  rw [hempty, List.nil_append] at hfilled
  obtain ⟨u, -, hcfg', hdrained, hpops⟩ := ht.ringTrace_pops (hcfg ▸ hv) hfilled
  have hzero : u.count.toNat = 0 := by rw [← u.contents_length, hdrained, List.length_nil]
  have hnone : consumerCount u = 0 := by rwa [consumerCount_of_immediate (hcfg' ▸ hcfg ▸ hv)]
  have hlast : ringTrace [.pop] u = some ⟨[], [], u.setResult (.popped none)⟩ :=
    ringTrace_pop_none (exec_pop_of_empty hnone) rfl rfl
  refine ⟨_, ringTrace_append (ringTrace_append hpushes hpops) hlast, ?_, ?_, BitVec.eq_of_toNat_eq hzero, rfl⟩
  · simp [RingTrace.append]
  · simp [RingTrace.append]

/-- What one PUSH or POP adds to a trace: the bytes it accepted and returned, by which `rd` and `count` move
(40_ringbuffer_ops.md R94). -/
theorem State.Inv.ringTrace_cons {s : State} (h : s.Inv) (op : RingOp) :
    ∃ (accepted returned : List Byte) (t : State),
      (∀ rest r, ringTrace rest t = some r →
        ringTrace (op :: rest) s = some (RingTrace.append ⟨accepted, returned, t⟩ r)) ∧
      t.Inv ∧ t.cfg = s.cfg ∧ t.rd.toNat = (s.rd.toNat + returned.length) % s.cfg.capacity ∧
      t.count.toNat + returned.length = s.count.toNat + accepted.length := by
  obtain ⟨-, hC, -⟩ := h.supported
  have hrd : s.rd.toNat = (s.rd.toNat + 0) % s.cfg.capacity := (Nat.mod_eq_of_lt h.ring.rd_lt).symm
  cases op with
  | push b =>
    by_cases hf : producerCount s = s.cfg.capacity
    · have hpush := exec_push_of_full b hf
      exact ⟨[], [], _, fun _ _ hr => ringTrace_push_refused hpush rfl hr, h.ringPush hpush, rfl, hrd, rfl⟩
    · have hpush := exec_push_of_free b hf h.ring.wr_lt
      exact ⟨[b], [], _, fun _ _ hr => ringTrace_push_accepted hpush rfl hr, h.ringPush hpush, rfl, hrd,
        h.count_add_one hf⟩
  | pop =>
    by_cases hc : consumerCount s = 0
    · exact ⟨[], [], _, fun _ _ hr => ringTrace_pop_none (exec_pop_of_empty hc) rfl hr, h.setResult _, rfl, hrd,
        rfl⟩
    · exact ⟨[], [_], _, fun _ _ hr => ringTrace_pop_some (exec_pop_of_unread hc h.ring.rd_lt) rfl hr,
        (h.ringDrop hc).setResult _, rfl, nextIndex_toNat hC h.ring.rd_lt, count_sub_one_add_one hc⟩

/-- Over any run of PUSHes and POPs `rd` moves by the bytes returned, and `count` by the difference to the bytes
accepted (40_ringbuffer_ops.md R94). -/
theorem State.Inv.ringTrace_indices {ops : List RingOp} {s : State} {r : RingTrace} (h : s.Inv)
    (hr : ringTrace ops s = some r) :
    r.final.Inv ∧ r.final.cfg = s.cfg ∧
    r.final.rd.toNat = (s.rd.toNat + r.returned.length) % s.cfg.capacity ∧
    r.final.count.toNat + r.returned.length = s.count.toNat + r.accepted.length := by
  induction ops generalizing s r with
  | nil =>
    cases hr
    exact ⟨h, rfl, (Nat.mod_eq_of_lt h.ring.rd_lt).symm, rfl⟩
  | cons op rest ih =>
    obtain ⟨accepted, returned, t, hcons, ht, hcfg, hrd, hcount⟩ := h.ringTrace_cons op
    obtain ⟨r', hr', -⟩ := bytesLeaveInArrivalOrder rest t ht
    obtain rfl := Option.some.inj ((hcons rest r' hr').symm.trans hr)
    obtain ⟨hfinal, hcfg', hrd', hcount'⟩ := ih ht hr'
    simp only [RingTrace.append, List.length_append]
    refine ⟨hfinal, hcfg'.trans hcfg, ?_, by omega⟩
    rw [hrd', hrd, hcfg, Nat.mod_add_mod, Nat.add_assoc]

/-- Settles O21.  The ring invariant gives `wr` from `rd` and `count`. -/
theorem indicesCountTheOperations : Obligations.IndicesCountTheOperations := by
  intro ops s r h _ hrd hcount hr
  obtain ⟨hfinal, hcfg, hrd', hcount'⟩ := h.ringTrace_indices hr
  rw [hrd, show (0 : Byte).toNat = 0 from rfl, Nat.zero_add] at hrd'
  rw [hcount, show (0 : Byte).toNat = 0 from rfl, Nat.zero_add] at hcount'
  refine ⟨?_, hrd', hcount', hcfg ▸ hfinal.ring.count_le⟩
  rw [hfinal.ring.wr_eq, hcfg, hrd', Nat.mod_add_mod, Nat.add_comm, hcount']

/-! ### The turns without a strobe or a frame to run -/

theorem Strobe.asserted_zero (l : Strobe) : Strobe.asserted 0 l = false := by
  simp [Strobe.asserted]

/-- An instant without strobes starts no operation (30_encoding.md R83). -/
theorem decodeStrobes_zero (order : List Strobe) (d : Byte) : decodeStrobes order 0 d = none := by
  rcases decodeStrobes_cases order 0 d with ⟨hrst, -⟩ | ⟨l, -, hl, -⟩ | ⟨-, hnone⟩
  · rw [Strobe.asserted_zero] at hrst
    cases hrst
  · rw [Strobe.asserted_zero] at hl
    cases hl
  · exact hnone

section
variable {s : State} {rest : List Input}

theorem takeTurn_readAvailable (hi : s.inputs = .readAvailable :: rest) :
    takeTurn s = exec .available (s.setInputs rest) := by
  simp only [takeTurn, hi]

theorem takeTurn_beginCycle (hi : s.inputs = .beginCycle :: rest) :
    takeTurn s = .next (beginCycle (s.setInputs rest)) := by
  simp only [takeTurn, hi]

theorem takeTurn_noStrobes {d : Byte} {order : List Strobe} (hi : s.inputs = .strobes 0 d order :: rest) :
    takeTurn s = .next (s.setInputs rest) := by
  simp only [takeTurn, hi, serveStrobes, decodeStrobes_zero]

theorem takeTurn_nil (hi : s.inputs = []) : takeTurn s = quietTurn s := by
  simp only [takeTurn, hi]

/-- Without a CYCLE in progress the consumer takes no step. -/
theorem consumerStep_of_idle {k : Nat} (hp : s.phase = .idle) : consumerStep k s = .next s := by
  simp only [consumerStep, hp]

theorem consumerStep_of_tail {k : Nat} (hp : s.phase = .tail) : consumerStep k s = tailTurn s := by
  simp only [consumerStep, hp]

/-- Serving the only entry put before an empty schedule leaves the state it was put in. -/
theorem State.setInputs_singleton_nil (hi : s.inputs = []) (x : Input) : (s.setInputs [x]).setInputs [] = s :=
  hi ▸ rfl

/-- A quiet turn goes on with the CYCLE in progress (44_control_cycle.md R136). -/
theorem takeTurn_nil_of_cycle (hi : s.inputs = []) (hp : s.phase ≠ .idle) :
    takeTurn s = takeTurn (s.setInputs [.consumerTurn 0]) := by
  rw [takeTurn_nil hi, takeTurn_consumerTurn (s.setInputs_inputs _), State.setInputs_singleton_nil hi]
  exact if_neg hp

/-- Without one, a quiet turn shortens the consumer's lag (20_memory.md R64; log entry 12). -/
theorem takeTurn_nil_of_lagC (hi : s.inputs = []) (hp : s.phase = .idle) (hl : 0 < s.lagC) :
    takeTurn s = takeTurn (s.setInputs [.sync .consumer]) := by
  rw [takeTurn_nil hi, takeTurn_sync (s.setInputs_inputs _), State.setInputs_singleton_nil hi]
  exact (if_pos hp).trans (if_pos hl)

/-- With no lag of the consumer's left, it shortens the producer's (20_memory.md R64; log entry 12). -/
theorem takeTurn_nil_of_lagP (hi : s.inputs = []) (hp : s.phase = .idle) (hl : s.lagC = 0) :
    takeTurn s = takeTurn (s.setInputs [.sync .producer]) := by
  rw [takeTurn_nil hi, takeTurn_sync (s.setInputs_inputs _), State.setInputs_singleton_nil hi]
  exact (if_pos hp).trans (if_neg (by omega))

end

/-- Settles O11: each clause is the turn its head of the schedule names. -/
theorem stepServesEveryOtherTurn : Obligations.StepServesEveryOtherTurn := by
  intro s hs
  have hserve (l : List Input) : takeTurn (s.setInputs l) = step { s with inputs := l } :=
    (step_of_supported (s := s.setInputs l) hs).symm
  rw [step_of_supported hs]
  refine ⟨?available, ?begin, ?noStrobes, ?consumer, ?tail, ?syncImmediate, ?syncConsumer, ?syncProducer,
    fun hi hp => (takeTurn_nil_of_cycle hi hp).trans (hserve _),
    fun hi hp hl => (takeTurn_nil_of_lagC hi hp hl).trans (hserve _),
    fun hi hp hl => (takeTurn_nil_of_lagP hi hp hl).trans (hserve _)⟩
  case available => exact fun rest => takeTurn_readAvailable
  case begin =>
    intro rest hi hp
    rw [takeTurn_beginCycle hi]
    exact congrArg Host.Outcome.next (if_pos hp)
  case noStrobes => exact fun d order rest => takeTurn_noStrobes
  case consumer =>
    intro k rest hi hp
    rw [takeTurn_consumerTurn hi]
    exact consumerStep_of_idle hp
  case tail =>
    intro k rest hi hp hn
    rw [takeTurn_consumerTurn hi]
    exact (consumerStep_of_tail (by exact hp)).trans (tailTurn_of_none (by exact hn))
  case syncImmediate =>
    intro side rest hi hv
    rw [takeTurn_sync hi, syncLag_of_immediate (by exact hv)]
    rfl
  case syncConsumer =>
    intro rest hi hv
    rw [takeTurn_sync hi, syncLag_consumer_of_lagged (by exact hv)]
    rfl
  case syncProducer =>
    intro rest hi hv
    rw [takeTurn_sync hi, syncLag_producer_of_lagged (by exact hv)]
    rfl

end Sys2Proof.Machine

/-! The framer family: FRAME_STEP case by case, a frame fed to the parser, PARSE as the feeding of the front of the queue,
VALIDATE, and a frame received in groups with a CYCLE after each (41_framer_ops.md). -/

namespace Sys2Proof.Machine

/-! ### FRAME_STEP, case by case -/

section
variable {s t : State} {b : Byte}

theorem collectPayload_cfg (b : Byte) (s : State) : (collectPayload b s).cfg = s.cfg := by
  rcases collectPayload_cases b s with ⟨-, h⟩ | ⟨-, -, h⟩ | ⟨-, -, h⟩ | ⟨-, -, h⟩ <;> rw [h]

/-- A marker arms an idle parser. -/
theorem parserStep_marker_of_idle (hf : s.inFrame = false) (hi : s.idx = 0) :
    parserStep Config.startMarker s = { s with inFrame := true, idx := 0 } := by
  simp [parserStep, collectPayload, markerTest, State.setParser, hf, hi]

/-- A parser that goes on collecting stays as it is under the marker test, unless the byte is a marker and markers restart
a frame. -/
theorem markerTest_of_collecting (hf : s.inFrame = true)
    (hb : s.cfg.markerRestartsFrame = false ∨ b ≠ Config.startMarker) : markerTest b s = s := by
  unfold markerTest
  split
  · next hm =>
    rw [hb.resolve_right (not_not_intro hm), if_neg Bool.false_ne_true, ← hf]
    rfl
  · rfl

/-- The first payload byte goes to `x[0]`. -/
theorem parserStep_of_idx_zero (hf : s.inFrame = true) (hi : s.idx = 0)
    (hb : s.cfg.markerRestartsFrame = false ∨ b ≠ Config.startMarker) :
    parserStep b s = { s with x0 := b, inFrame := true, idx := 1 } := by
  have hc : collectPayload b s = { s with x0 := b, inFrame := true, idx := 1 } := by
    simpa [hf, hi] using collectPayload_cases b s
  exact (congrArg (markerTest b) hc).trans (markerTest_of_collecting rfl hb)

/-- The second goes to `x[1]`. -/
theorem parserStep_of_idx_one (hf : s.inFrame = true) (hi : s.idx = 1)
    (hb : s.cfg.markerRestartsFrame = false ∨ b ≠ Config.startMarker) :
    parserStep b s = { s with x1 := b, inFrame := true, idx := 2 } := by
  have hc : collectPayload b s = { s with x1 := b, inFrame := true, idx := 2 } := by
    simpa [hf, hi] using collectPayload_cases b s
  exact (congrArg (markerTest b) hc).trans (markerTest_of_collecting rfl hb)

/-- The third goes to `x[2]` and completes the frame; a marker there arms the parser again (R105 (b)). -/
theorem parserStep_of_idx_two (hf : s.inFrame = true) (hi : s.idx = 2) :
    parserStep b s =
      { s with x2 := b, newData := true, inFrame := decide (b = Config.startMarker), idx := 0 } := by
  have hc : collectPayload b s = { s with x2 := b, newData := true, inFrame := false, idx := 0 } := by
    simpa [hf, hi] using collectPayload_cases b s
  rw [parserStep, hc, markerTest]
  by_cases hm : b = Config.startMarker <;> simp [hm, State.setParser]

theorem State.parser_eq_iff : s.parser = t.parser ↔
    s.inFrame = t.inFrame ∧ s.idx = t.idx ∧ s.x0 = t.x0 ∧ s.x1 = t.x1 ∧ s.x2 = t.x2 ∧ s.newData = t.newData := by
  simp [State.parser]

theorem newData_of_parser_eq (h : s.parser = t.parser) : s.newData = t.newData := by
  obtain ⟨-, -, -, -, -, hn⟩ := State.parser_eq_iff.mp h
  exact hn

/-- FRAME_STEP looks at the parser's registers and the parameters only. -/
theorem parserStep_parser_congr (b : Byte) (hp : s.parser = t.parser) (hcfg : s.cfg = t.cfg) :
    (parserStep b s).parser = (parserStep b t).parser := by
  obtain ⟨hf, hi, h0, h1, h2, hn⟩ := State.parser_eq_iff.mp hp
  unfold parserStep markerTest
  rw [collectPayload_cfg, collectPayload_cfg, hcfg]
  unfold collectPayload
  rw [hf, hi]
  split_ifs <;> simp [State.parser, *]

end

/-- Settles O22: block 1 changes no parameter, so block 2 tests the one FRAME_STEP began with. -/
theorem frameStepRunsItsTwoBlocks : Obligations.FrameStepRunsItsTwoBlocks := by
  intro b s collected
  have hcollected : collectPayload b s = collected := by
    rcases collectPayload_cases b s with ⟨hf, h⟩ | ⟨hf, hi, h⟩ | ⟨hf, hi, h⟩ | ⟨hf, hi, h⟩
    · simp [collected, h, hf]
    all_goals simp [collected, h, hf, hi]
  rw [← hcollected, ← collectPayload_cfg b s]
  rfl

/-- Settles O23: the checksum test VALIDATE hands over is the Boolean form of the equation. -/
theorem validateComparesTheChecksum : Obligations.ValidateComparesTheChecksum := fun _ => rfl

/-! ### Bytes fed to the parser -/

section
variable {s t : State}

theorem feed_append (l l' : List Byte) (s : State) : feed (l ++ l') s = feed l' (feed l s) := by
  induction l generalizing s with
  | nil => rfl
  | cons b l ih => exact ih (parserStep b s)

theorem feed_parser_congr (l : List Byte) (hp : s.parser = t.parser) (hcfg : s.cfg = t.cfg) :
    (feed l s).parser = (feed l t).parser := by
  induction l generalizing s t with
  | nil => exact hp
  | cons b l ih => exact ih (parserStep_parser_congr b hp hcfg) (by simpa using hcfg)

theorem feed_cfg (l : List Byte) (s : State) : (feed l s).cfg = s.cfg := by
  induction l generalizing s with
  | nil => rfl
  | cons b l ih => exact (ih _).trans (parserStep_cfg b s)

/-- An armed parser takes the first two payload bytes without completing a frame. -/
theorem feed_two_of_armed {op m : Byte} (hf : s.inFrame = true) (hi : s.idx = 0)
    (hb : s.cfg.markerRestartsFrame = false ∨ op ≠ Config.startMarker ∧ m ≠ Config.startMarker) :
    feed [op, m] s = { s with x0 := op, x1 := m, inFrame := true, idx := 2 } := by
  have hop := parserStep_of_idx_zero hf hi (hb.imp_right And.left)
  exact (congrArg (parserStep m) hop).trans (parserStep_of_idx_one rfl rfl (hb.imp_right And.right))

/-- Fewer than three payload bytes leave `new_data` of an armed parser as it is. -/
theorem newData_feed_take_payload (op m c : Byte) {k : Nat} (hf : s.inFrame = true) (hi : s.idx = 0)
    (hb : s.cfg.markerRestartsFrame = false ∨ op ≠ Config.startMarker ∧ m ≠ Config.startMarker) (hk : k < 3) :
    (feed ([op, m, c].take k) s).newData = s.newData := by
  match k, hk with
  | 0, _ => rfl
  | 1, _ => exact congrArg (·.newData) (parserStep_of_idx_zero hf hi (hb.imp_right And.left))
  | 2, _ => exact congrArg (·.newData) (feed_two_of_armed hf hi hb)

/-- Three payload bytes complete the frame of an armed parser, whatever the third is. -/
theorem feed_payload_of_armed {op m : Byte} (c : Byte) (hf : s.inFrame = true) (hi : s.idx = 0)
    (hb : s.cfg.markerRestartsFrame = false ∨ op ≠ Config.startMarker ∧ m ≠ Config.startMarker) :
    feed [op, m, c] s =
      { s with
        x0 := op, x1 := m, x2 := c, newData := true
        inFrame := decide (c = Config.startMarker), idx := 0 } := by
  rw [show [op, m, c] = [op, m] ++ [c] from rfl, feed_append, feed_two_of_armed hf hi hb]
  exact parserStep_of_idx_two rfl rfl

/-- A marker and three payload bytes complete the frame of an idle parser. -/
theorem feed_frame_of_idle {op m : Byte} (c : Byte) (hf : s.inFrame = false) (hi : s.idx = 0)
    (hb : s.cfg.markerRestartsFrame = false ∨ op ≠ Config.startMarker ∧ m ≠ Config.startMarker) :
    feed [Config.startMarker, op, m, c] s =
      { s with
        x0 := op, x1 := m, x2 := c, newData := true
        inFrame := decide (c = Config.startMarker), idx := 0 } := by
  rw [feed, parserStep_marker_of_idle hf hi]
  exact feed_payload_of_armed c rfl rfl hb

/-- No fewer bytes of a frame than all four complete one. -/
theorem newData_feed_take_frame (op m c : Byte) {k : Nat} (hf : s.inFrame = false) (hi : s.idx = 0)
    (hb : s.cfg.markerRestartsFrame = false ∨ op ≠ Config.startMarker ∧ m ≠ Config.startMarker) (hk : k < 4) :
    (feed ([Config.startMarker, op, m, c].take k) s).newData = s.newData := by
  cases k with
  | zero => rfl
  | succ k =>
    rw [List.take_succ_cons, feed, parserStep_marker_of_idle hf hi]
    exact newData_feed_take_payload op m c rfl rfl hb (by omega)

end

/-- Settles O26: no payload byte of a Move frame is the marker. -/
theorem moveFrameIsCollectedEitherWay : Obligations.MoveFrameIsCollectedEitherWay := by
  intro op m s ho hm hf hi
  obtain ⟨-, -, -, hop, hmag, hsum⟩ := moveFrameHoldsNoMarker op m ho hm
  rw [frameBytes, feed_frame_of_idle _ hf hi (.inr ⟨hop, hmag⟩), decide_eq_false hsum]

/-- Settles O27: the swallowed marker completes the short frame and arms the parser for the next payload. -/
theorem parserRecoversAtTheNextFrame : Obligations.ParserRecoversAtTheNextFrame := by
  intro op m c s hf hi _ hr swallowed discarded
  have hswallowed : swallowed = { s with x2 := Config.startMarker, newData := true, inFrame := true, idx := 0 } :=
    parserStep_of_idx_two (b := Config.startMarker) hf hi
  have hdiscarded :
      discarded = { s with x2 := Config.startMarker, newData := false, inFrame := true, idx := 0 } := by
    simp only [discarded, hswallowed]
  rw [hdiscarded]
  refine ⟨hswallowed, ?_, ?_, feed_payload_of_armed c rfl rfl (.inl hr)⟩
  · exact newData_feed_take_payload op m c (k := 1) rfl rfl (.inl hr) (by decide)
  · exact newData_feed_take_payload op m c (k := 2) rfl rfl (.inl hr) (by decide)

/-! ### PARSE feeds the front of the queue -/

/-- `t` is `s` after `n` passes of PARSE: `n` bytes have gone from the front of the queue through the parser, and no
fewer of them complete a frame (R102). -/
structure State.Parsed (n : Nat) (s t : State) : Prop where
  unread : consumerCount t + n = consumerCount s
  rd : t.rd.toNat = (s.rd.toNat + n) % s.cfg.capacity
  count : t.count.toNat + n = s.count.toNat
  lagP : t.lagP = if s.cfg.cdcView = .lagged then s.lagP + n else s.lagP
  contents : t.contents = s.contents.drop n
  parser : t.parser = (feed (s.contents.take n) s).parser
  shortest : ∀ m < n, (feed (s.contents.take m) s).newData = false

section
variable {s t : State} {l : List Input} {r : OpResult}

theorem State.Parsed.zero (hr : s.rd.toNat < s.cfg.capacity) : State.Parsed 0 s s where
  unread := rfl
  rd := (Nat.mod_eq_of_lt hr).symm
  count := rfl
  lagP := (ite_self _).symm
  contents := rfl
  parser := rfl
  shortest := nofun

/-- One pass before `n` passes.  Within PARSE a frame can wait while the recorded progress is `idle`, so the invariants
are those of the same machine with its progress recorded as `parsing`. -/
theorem State.Parsed.cons {n : Nat} (h : (s.inContext .parsing l r).Inv) (hd : parseDone s = false)
    (ht : State.Parsed n (parserStep (Memory.read s.buf s.rd.toNat) (ringDrop s)) t) : State.Parsed (n + 1) s t := by
  obtain ⟨hc, hn⟩ := parseDone_false_iff.mp hd
  obtain ⟨-, hC, -⟩ := h.supported
  have hhead : s.contents = Memory.read s.buf s.rd.toNat :: (ringDrop s).contents := h.contents_eq_cons hc
  have htail : (parserStep (Memory.read s.buf s.rd.toNat) (ringDrop s)).contents = (ringDrop s).contents := by
    rw [parserStep_eq]; rfl
  have hfeed (k : Nat) : (feed (s.contents.take (k + 1)) s).parser =
      (feed ((ringDrop s).contents.take k) (parserStep (Memory.read s.buf s.rd.toNat) (ringDrop s))).parser := by
    rw [hhead]
    exact feed_parser_congr (_ :: _) rfl rfl
  obtain ⟨hunread, hrd, hcount, hlagP, hcontents, hparser, hshortest⟩ := ht
  rw [htail] at hcontents hparser
  simp only [htail] at hshortest
  constructor
  case unread =>
    rw [consumerCount_parserStep, consumerCount_ringDrop hc] at hunread
    omega
  case rd =>
    rw [hrd, parserStep_cfg, parserStep_rd, show (ringDrop s).rd.toNat = _ from nextIndex_toNat hC h.ring.rd_lt]
    exact (Nat.mod_add_mod ..).trans (by rw [Nat.add_assoc, Nat.add_comm 1 n])
  case count =>
    rw [parserStep_count] at hcount
    rw [← count_sub_one_add_one hc, ← Nat.add_assoc]
    exact congrArg (· + 1) hcount
  case lagP =>
    rw [hlagP, parserStep_lagP, parserStep_cfg, show (ringDrop s).lagP = lagAfter s.lagP s from rfl]
    cases hv : s.cfg.cdcView with
    | immediate => simp [lagAfter_of_immediate hv, ringDrop_eq, hv]
    | lagged =>
      simp only [lagAfter_of_lagged hv, ringDrop_eq, hv, if_true]
      omega
  case contents => rw [hcontents, hhead, List.drop_succ_cons]
  case parser => rw [hparser, hfeed]
  case shortest =>
    intro m hm
    cases m with
    | zero => exact hn
    | succ m => exact (newData_of_parser_eq (hfeed m)).trans (hshortest m (by omega))

/-- As many passes as there are unread bytes reach the exit condition of PARSE (R102). -/
theorem parseLoop_parsed {k : Nat} (h : (s.inContext .parsing l r).Inv) (hk : consumerCount s = k) :
    ∃ t n, parseLoop k s = .next t ∧ State.Parsed n s t ∧ parseDone t = true := by
  induction k generalizing s with
  | zero => exact ⟨s, 0, rfl, .zero h.ring.rd_lt, by simp [parseDone, hk]⟩
  | succ k ih =>
    unfold parseLoop
    cases hd : parseDone s with
    | true => exact ⟨s, 0, rfl, .zero h.ring.rd_lt, hd⟩
    | false =>
      obtain ⟨hc, hn⟩ := parseDone_false_iff.mp hd
      rcases parsePass_cases hd with ⟨-, hpass⟩ | ⟨hr, -⟩
      · have hnext := (h.ringDrop hc).parserStep hn nofun (Memory.read s.buf s.rd.toNat)
        rw [ringDrop_inContext, parserStep_inContext] at hnext
        have hleft := consumerCount_ringDrop hc
        obtain ⟨t, n, ht, hparsed, hdone⟩ := ih hnext (by rw [consumerCount_parserStep]; omega)
        exact ⟨t, n + 1, by rwa [if_neg Bool.false_ne_true, hpass], hparsed.cons h hd, hdone⟩
      · exact absurd h.ring.rd_lt hr

/-- PARSE answers, having fed the front of the queue to the parser (R102). -/
theorem State.Inv.execParse_parsed (h : s.Inv) :
    ∃ t n, execParse s = .next t ∧ State.Parsed n s t ∧ parseDone t = true :=
  parseLoop_parsed (h.inContext (p := .parsing) nofun nofun [] .none) rfl

end

/-- Settles O24. -/
theorem parseFeedsAPrefix : Obligations.ParseFeedsAPrefix := by
  intro s h
  obtain ⟨t, n, ht, hparsed, hdone⟩ := h.execParse_parsed
  have hunread := hparsed.unread
  exact ⟨t, n, ht, by omega, by omega, hparsed.rd, hparsed.count, hparsed.lagP, hparsed.contents, hparsed.parser,
    by simpa [parseDone] using hdone, hparsed.shortest, parseLoop_frame ht⟩

/-! ### A frame received in groups -/

theorem runAll_append (l l' : List Instr) (s : State) : runAll (l ++ l') s = andThen (runAll l s) (runAll l') := by
  induction l generalizing s with
  | nil => rfl
  | cons i l ih =>
    simp only [List.cons_append, runAll, andThen_assoc]
    exact congrArg (andThen (exec i s)) (funext ih)

/-- The PUSHes of a received group run as they do in a trace of the ring. -/
theorem runAll_receive_of_ringTrace {bs : List Byte} {s : State} {r : RingTrace}
    (h : ringTrace (bs.map .push) s = some r) : runAll (receive bs) s = .next r.final := by
  induction bs generalizing s r with
  | nil => cases h; rfl
  | cons b bs ih =>
    cases hx : exec (.push b) s <;>
      simp only [List.map_cons, ringTrace, hx, Option.map_eq_some_iff, reduceCtorEq] at h
    obtain ⟨q, hq, rfl⟩ := h
    simpa [receive, runAll, hx] using ih hq

/-- PUSHes change the write side of the ring only. -/
theorem runAll_receive_frame {bs : List Byte} {s t : State} (h : runAll (receive bs) s = .next t) :
    t = { s with buf := t.buf, wr := t.wr, count := t.count, lagC := t.lagC, wAck := t.wAck } := by
  induction bs generalizing s with
  | nil => cases h; rfl
  | cons b bs ih =>
    obtain ⟨u, hu, ht⟩ := andThen_eq_next.mp h
    rw [ih ht, exec_push_frame hu]

section
variable {s : State}

/-- PARSE feeds the whole queue when no shorter front of it completes a frame. -/
theorem State.Inv.execParse_feeds_all (h : s.Inv) (hv : s.cfg.cdcView = .immediate)
    (hpre : ∀ m < s.contents.length, (feed (s.contents.take m) s).newData = false) :
    ∃ t, execParse s = .next t ∧ t.count = 0 ∧ t.parser = (feed s.contents s).parser := by
  obtain ⟨t, n, ht, hparsed, hdone⟩ := h.execParse_parsed
  have hcount := hparsed.count
  have hcfg : t.cfg = s.cfg := by rw [parseLoop_frame ht]
  have hall : n = s.contents.length := by
    rw [s.contents_length]
    by_contra hne
    have hnew : t.newData = false :=
      (newData_of_parser_eq hparsed.parser).trans (hpre n (by rw [s.contents_length]; omega))
    have hseen : consumerCount t = 0 := by simpa [parseDone, hnew] using hdone
    rw [consumerCount_of_immediate (hcfg ▸ hv)] at hseen
    omega
  refine ⟨t, ht, ?_, ?_⟩
  · rw [hall, s.contents_length] at hcount
    exact BitVec.eq_of_toNat_eq (Nat.add_eq_right.mp hcount)
  · rw [hparsed.parser, hall, List.take_length]

/-- `u` is `s` after the bytes `bs` have been received and all fed to the parser. -/
structure State.Received (bs : List Byte) (s u : State) : Prop where
  parser : u.parser = (feed bs s).parser
  drained : u.count = 0
  frame : u = { s with
    buf := u.buf, wr := u.wr, rd := u.rd, count := u.count, lagC := u.lagC, lagP := u.lagP, wAck := u.wAck
    inFrame := u.inFrame, idx := u.idx, x0 := u.x0, x1 := u.x1, x2 := u.x2, newData := u.newData }

theorem State.Received.cfg {bs : List Byte} {u : State} (h : State.Received bs s u) : u.cfg = s.cfg := by
  rw [h.frame]

theorem State.Received.phase {bs : List Byte} {u : State} (h : State.Received bs s u) : u.phase = s.phase := by
  rw [h.frame]

/-- More bytes fed after `bs` go on from where `bs` left the parser. -/
theorem State.Received.feed {bs : List Byte} {u : State} (h : State.Received bs s u) (l : List Byte) :
    (Machine.feed l u).parser = (Machine.feed (bs ++ l) s).parser := by
  rw [feed_append, feed_parser_congr l h.parser (h.cfg.trans (feed_cfg bs s).symm)]

theorem State.Received.append {bs bs' : List Byte} {u v : State} (h : State.Received bs s u)
    (h' : State.Received bs' u v) : State.Received (bs ++ bs') s v where
  parser := by rw [h'.parser, h.feed]
  drained := h'.drained
  frame := by rw [h'.frame, h.frame]

/-- A group received on an empty ring, then a CYCLE: the parser gets the whole group, then the tail runs. -/
theorem runAll_group {bs : List Byte} (h : s.Inv) (hv : s.cfg.cdcView = .immediate) (hp : s.phase = .idle)
    (hempty : s.count = 0) (hroom : bs.length ≤ s.cfg.capacity)
    (hpre : ∀ m < bs.length, (feed (bs.take m) s).newData = false) :
    ∃ u, runAll (receive bs ++ [.cycle]) s = .next (cycleTail u) ∧ (cycleTail u).Inv ∧ State.Received bs s u := by
  have hnone : s.contents = [] := List.eq_nil_of_length_eq_zero (by simp [hempty])
  obtain ⟨t, ht, hcfg, hcontents, htrace⟩ := h.ringTrace_pushes hv (by simpa [hempty] using hroom)
  rw [hnone, List.nil_append] at hcontents
  have hpushes : runAll (receive bs) s = .next t := runAll_receive_of_ringTrace htrace
  have hframe := runAll_receive_frame hpushes
  have hphase : t.phase = .idle := by rw [hframe, hp]
  have hfeed (l : List Byte) : (feed l t).parser = (feed l s).parser :=
    feed_parser_congr l (by rw [hframe]; rfl) hcfg
  obtain ⟨u, hu, hcount, hparser⟩ := ht.execParse_feeds_all (hcfg ▸ hv) fun m hm => by
    rw [hcontents] at hm ⊢
    exact (newData_of_parser_eq (hfeed _)).trans (hpre m hm)
  rw [hcontents, hfeed] at hparser
  have hcycle : exec .cycle t = .next (cycleTail u) := by
    rw [show exec .cycle t = execCycle t from rfl, execCycle, if_pos hphase, hu, andThen_next]
  refine ⟨u, ?_, ht.execCycle hcycle, hparser, hcount, by rw [parseLoop_frame hu, hframe]⟩
  rw [runAll_append, hpushes, andThen_next, runAll, hcycle, andThen_next, runAll]

/-- A CYCLE that finds no byte and no completed frame changes nothing (44_control_cycle.md R138). -/
theorem exec_cycle_of_none (hc : consumerCount s = 0) (hn : s.newData = false) : exec .cycle s = .next s := by
  simp [exec, execCycle, execParse, hc, parseLoop, cycleTail_of_none hn]

/-- Bytes received in two groups, with a CYCLE after each, are as if received in one, when the last of them is the first to
complete a frame: the parser keeps the partial frame from one CYCLE to the next (R106). -/
theorem runAll_two_groups {bs : List Byte} {n : Nat} (h : s.Inv) (hv : s.cfg.cdcView = .immediate)
    (hp : s.phase = .idle) (hempty : s.count = 0) (hroom : bs.length ≤ s.cfg.capacity)
    (hpre : ∀ m < bs.length, (feed (bs.take m) s).newData = false) :
    ∃ u, runAll (receive (bs.take n) ++ [.cycle] ++ receive (bs.drop n) ++ [.cycle]) s = .next (cycleTail u) ∧
      State.Received bs s u := by
  rw [List.append_assoc, runAll_append]
  have hlen := bs.length_take_le' n
  obtain ⟨u, hrun, hu, hfirst⟩ := runAll_group (bs := bs.take n) h hv hp hempty (hlen.trans hroom) fun m hm => by
    rw [List.take_take]
    exact hpre _ (by omega)
  rw [hrun, andThen_next]
  rcases Nat.lt_or_ge n bs.length with hn | hn
  · have hnone : cycleTail u = u := cycleTail_of_none ((newData_of_parser_eq hfirst.parser).trans (hpre n hn))
    rw [hnone] at hu ⊢
    have hroom' : (bs.drop n).length ≤ u.cfg.capacity := by rw [hfirst.cfg, List.length_drop]; omega
    obtain ⟨v, hrun', -, hsecond⟩ := runAll_group (bs := bs.drop n) hu (hfirst.cfg ▸ hv) (hfirst.phase.trans hp)
      hfirst.drained hroom' fun m hm => by
        rw [List.length_drop] at hm
        have hboth := hpre (n + m) (by omega)
        rwa [List.take_add, ← newData_of_parser_eq (hfirst.feed _)] at hboth
    exact ⟨v, hrun', List.take_append_drop n bs ▸ hfirst.append hsecond⟩
  · rw [List.take_of_length_le hn] at hfirst
    have hunread : consumerCount (cycleTail u) = 0 := by
      rw [cycleTail_eq, consumerCount_of_immediate (hfirst.cfg ▸ hv)]
      exact congrArg BitVec.toNat hfirst.drained
    refine ⟨u, ?_, hfirst⟩
    rw [List.drop_of_length_le hn]
    simp [receive, runAll, exec_cycle_of_none hunread (cycleTail_newData u)]

/-- The tail of CYCLE runs the command the frame in `x` decodes to (30_encoding.md R79, 44_control_cycle.md R135). -/
theorem cycleTail_eq_decoded (hn : s.newData = true) :
    ∃ c, (∀ t, motorCommandOf t (decodePayload s.x0 s.x1 s.x2) = some c) ∧
      cycleTail s = (runCommand c s).setNewData false := by
  unfold cycleTail checksumValid
  rw [if_pos hn]
  by_cases hc : s.x0 ^^^ s.x1 = s.x2
  · exact ⟨_, motorCommandOf_decodePayload_eq hc, by rw [if_pos (by simpa using hc)]; rfl⟩
  · exact ⟨.invalid .checksumFail, fun t => by rw [decodePayload_of_checksum_ne hc]; rfl,
      by rw [if_neg (by simpa using hc)]; rfl⟩

/-- What a command gives the motor does not depend on where it starts (42_dispatch_commands.md R116). -/
theorem runCommand_motor (c : MotorCommand) (s t : State) : (runCommand c s).motor = (runCommand c t).motor := by
  cases c <;> rfl

end

/-- Settles O41: both groups together complete the frame, and the tail that finds it complete runs its command. -/
theorem frameOnTheWireRunsItsCommand : Obligations.FrameOnTheWireRunsItsCommand := by
  intro op m c n s h hv hr hp hf hcount hcap _ bytes
  have hi := h.parser.idle_idx hf
  have hpre (k : Nat) (hk : k < bytes.length) : (feed (bytes.take k) s).newData = false :=
    (newData_feed_take_frame op m c hf hi (.inl hr) hk).trans (h.parser.between_cycles hp)
  obtain ⟨u, hrun, hu⟩ := runAll_two_groups (bs := bytes) (n := n) h hv hp hcount hcap hpre
  have hparser := hu.parser
  rw [feed_frame_of_idle c hf hi (.inl hr), State.parser_eq_iff] at hparser
  obtain ⟨hinFrame, hidx, h0, h1, h2, hnew⟩ := hparser
  obtain ⟨cmd, hcmd, htail⟩ := cycleTail_eq_decoded hnew
  rw [h0, h1, h2] at hcmd
  refine ⟨_, _, hrun, exec_of_motorCommandOf (hcmd s), ?_, ?_, ?_, cycleTail_newData u, ?_, ?_⟩
  · rw [htail]
    exact runCommand_motor cmd u s
  · rw [cycleTail_eq, runCommand_eq, hu.frame]
  all_goals rw [cycleTail_eq]
  · exact hu.drained
  · exact hinFrame
  · exact hidx

end Sys2Proof.Machine

/-! The dispatch family: the motor state DISPATCH and the four Move commands give, and the tail that writes it register by
register (42_dispatch_commands.md; 93_implementation_defined.md U19). -/

namespace Sys2Proof.Machine

/-! ### The command of a payload -/

/-- With an opcode that names a direction only the magnitude is left to test (42_dispatch_commands.md R110). -/
theorem motorCommand_of_directionOf {op : Byte} {d : Direction} (m : Byte) (h : directionOf op = some d) :
    motorCommand op m = commandOf d m := by
  unfold motorCommand
  rw [h]

/-- DISPATCH sets the pins of the direction its opcode names and its magnitude as the duty, when that is 0..100
(42_dispatch_commands.md R110). -/
theorem exec_dispatch_of_move {s : State} {d : Direction} (hd : directionOf s.x0 = some d) (hm : s.x1.toNat ≤ 100) :
    exec .dispatch s = .next { s with dirA := d.pinA, dirB := d.pinB, duty := s.x1 } :=
  exec_of_commandOf (congrArg some (motorCommand_of_directionOf s.x1 hd)) hm

/-- Settles O28: the chain of tests is the split into Pause by opcode, Pause by magnitude, and the four directions. -/
theorem dispatchDrivesTheMotor : Obligations.DispatchDrivesTheMotor := by
  intro s
  by_cases ho : isMoveOpcode s.x0 = true
  case neg =>
    have ho : isMoveOpcode s.x0 = false := by simpa using ho
    rw [if_pos (isMoveOpcode_false_iff_not_mem.mp ho)]
    exact exec_of_invalid (congrArg some (motorCommand_of_badOpcode s.x1 ho))
  case pos =>
    rw [if_neg (not_not.mpr (isMoveOpcode_iff_mem.mp ho))]
    rcases Nat.lt_or_ge 100 s.x1.toNat with hm | hm
    · rw [if_pos hm]
      exact exec_of_invalid (congrArg some (motorCommand_of_badMagnitude ho hm))
    · rw [if_neg (Nat.not_lt.mpr hm)]
      rcases isMoveOpcode_iff.mp ho with h | h | h | h
      · simpa [h, Direction.pinA, Direction.pinB] using exec_dispatch_of_move (d := .forward) (by rw [h]; rfl) hm
      · simpa [h, Direction.pinA, Direction.pinB] using exec_dispatch_of_move (d := .right) (by rw [h]; rfl) hm
      · simpa [h, Direction.pinA, Direction.pinB] using exec_dispatch_of_move (d := .backward) (by rw [h]; rfl) hm
      · simpa [h, Direction.pinA, Direction.pinB] using exec_dispatch_of_move (d := .left) (by rw [h]; rfl) hm

/-- Settles O29. -/
theorem moveCommandsDriveTheMotor : Obligations.MoveCommandsDriveTheMotor := by
  intro m s
  refine ⟨fun hm => ⟨?_, ?_, ?_, ?_⟩, fun hm i hi => ?_⟩
  · exact exec_of_commandOf (d := .forward) rfl hm
  · exact exec_of_commandOf (d := .right) rfl hm
  · exact exec_of_commandOf (d := .backward) rfl hm
  · exact exec_of_commandOf (d := .left) rfl hm
  · have hmove : ∃ d, motorCommandOf s i = some (commandOf d m) := by
      simp only [List.mem_cons, List.not_mem_nil, or_false] at hi
      rcases hi with rfl | rfl | rfl | rfl <;> exact ⟨_, rfl⟩
    obtain ⟨d, hd⟩ := hmove
    exact exec_of_invalid (hd.trans (congrArg some (commandOf_of_gt d hm)))

/-! ### The same command again -/

/-- A command run twice is that command run once (42_dispatch_commands.md R116). -/
theorem runCommand_idem (c : MotorCommand) (s : State) : runCommand c (runCommand c s) = runCommand c s := by
  cases c <;> rfl

theorem exec_dispatch (s : State) : exec .dispatch s = .next (runCommand (motorCommand s.x0 s.x1) s) :=
  exec_of_motorCommandOf rfl

/-- Settles O32: equal payloads name one command, and that command leaves the payload it was read from. -/
theorem dispatchHasNoMemory : Obligations.DispatchHasNoMemory := by
  intro s s' t t' h0 h1 ht ht'
  rw [exec_dispatch] at ht ht'
  obtain rfl := Host.Outcome.next.inj ht
  obtain rfl := Host.Outcome.next.inj ht'
  generalize hc : motorCommand s.x0 s.x1 = c
  have hpayload : motorCommand (runCommand c s).x0 (runCommand c s).x1 = c := by rw [runCommand_eq, hc]
  rw [← h0, ← h1, hc]
  exact ⟨runCommand_motor c s s', by rw [exec_dispatch, hpayload, runCommand_idem]⟩

/-! ### The turns of a tail with DISPATCH_ATOMIC = false -/

section
variable {s : State} {rest : List Input} {k : Nat} {a b : Bool} {d : Byte} {left : List MotorReg} {r : MotorReg}

/-- A motor write by the register it names. -/
theorem writeMotor_eq (a b : Bool) (d : Byte) (r : MotorReg) (s : State) :
    writeMotor a b d r s = { s with
      dirA := if r = .dirA then a else s.dirA
      dirB := if r = .dirB then b else s.dirB
      duty := if r = .duty then d else s.duty } := by
  cases r <;> rfl

/-- The tail's first step keeps the motor state of the command in `x` and writes no register (log entry 13). -/
theorem tailTurn_of_separate {c : MotorCommand} (hn : s.newData = true) (ha : s.cfg.dispatchAtomic = false)
    (hc : motorCommandOf s (decodePayload s.x0 s.x1 s.x2) = some c) :
    tailTurn s = .next (s.setPhase
      (.writing (runCommand c s).dirA (runCommand c s).dirB (runCommand c s).duty [.dirA, .dirB, .duty])) := by
  unfold tailTurn
  rw [if_pos hn, exec_of_motorCommandOf hc, andThen_next, if_neg (by simp [ha])]

/-- The same for a step of the machine: only the schedule and the progress of the CYCLE change. -/
theorem step_of_separate_tail {c : MotorCommand} (hs : s.cfg.Supported) (hi : s.inputs = .consumerTurn k :: rest)
    (hp : s.phase = .tail) (hn : s.newData = true) (ha : s.cfg.dispatchAtomic = false)
    (hc : motorCommandOf s (decodePayload s.x0 s.x1 s.x2) = some c) :
    step s = .next { s with
      inputs := rest
      phase := .writing (runCommand c s).dirA (runCommand c s).dirB (runCommand c s).duty [.dirA, .dirB, .duty] } := by
  have htail : tailTurn (s.setInputs rest) = _ := tailTurn_of_separate (by exact hn) (by exact ha) (by exact hc)
  rw [step_of_supported hs, takeTurn_consumerTurn hi, consumerStep_of_tail (by exact hp), htail]
  cases c <;> rfl

theorem consumerStep_of_writing (hp : s.phase = .writing a b d left) :
    consumerStep k s = .next (writeTurn k a b d left s) := by
  simp only [consumerStep, hp]

/-- A further step writes the register chosen, and the last one ends the CYCLE (log entry 13). -/
theorem step_of_writing (hs : s.cfg.Supported) (hi : s.inputs = .consumerTurn k :: rest)
    (hp : s.phase = .writing a b d left) (hr : left[k % left.length]? = some r) :
    step s = .next { s with
      inputs := rest
      dirA := if r = .dirA then a else s.dirA
      dirB := if r = .dirB then b else s.dirB
      duty := if r = .duty then d else s.duty
      newData := if left.length ≤ 1 then false else s.newData
      phase := if left.length ≤ 1 then .idle else .writing a b d (left.eraseIdx (k % left.length)) } := by
  rw [step_of_supported hs, takeTurn_consumerTurn hi, consumerStep_of_writing (by exact hp), writeTurn_of_get hr,
    writeMotor_eq]
  split <;> rfl

end

/-- Settles O56. -/
theorem separateDispatchTurns : Obligations.SeparateDispatchTurns := by
  intro s k rest hs hi
  refine ⟨fun ha hp hn => ?_, fun a b d left r hp hr => step_of_writing hs hi hp hr⟩
  obtain ⟨c, hc⟩ := motorCommandOf_decodePayload s.x0 s.x1 s.x2 s
  exact ⟨_, exec_of_motorCommandOf hc, step_of_separate_tail hs hi hp hn ha hc⟩

/-! ### The writes left, in any order -/

section
variable {a b : Bool} {d : Byte}

/-- `s` once the registers `left` hold the motor state `{a, b}`, `d`, the frame is discarded and the CYCLE over, with
`rest` still to come in the schedule. -/
def State.afterWrites (a b : Bool) (d : Byte) (left : List MotorReg) (rest : List Input) (s : State) : State :=
  { s with
    dirA := if .dirA ∈ left then a else s.dirA
    dirB := if .dirB ∈ left then b else s.dirB
    duty := if .duty ∈ left then d else s.duty
    newData := false
    phase := .idle
    inputs := rest }

/-- With all three registers left, that is the atomic write of the motor state (42_dispatch_commands.md R110). -/
theorem State.afterWrites_all (rest : List Input) (s : State) :
    s.afterWrites a b d [.dirA, .dirB, .duty] rest =
      finishCycle ((s.setMotor a b d).setInputs rest) := rfl

/-- The registers left are the one written and those left after it. -/
theorem mem_iff_mem_eraseIdx_or_getElem_eq {left : List MotorReg} {i : Nat} (hi : i < left.length) (q : MotorReg) :
    q ∈ left ↔ q ∈ left.eraseIdx i ∨ left[i] = q := by
  rw [← (List.getElem_cons_eraseIdx_perm hi).mem_iff, List.mem_cons, or_comm, eq_comm]

/-- The turns of the writes left end alike, whichever register each of them chooses (93_implementation_defined.md U19):
a register is written once, and with the value decided by the tail's first step. -/
theorem run_writes {ks : List Nat} {left : List MotorReg} {rest : List Input} {s : State} (hs : s.cfg.Supported)
    (hi : s.inputs = ks.map .consumerTurn ++ rest) (hp : s.phase = .writing a b d left)
    (hlen : left.length = ks.length) (hne : ks ≠ []) :
    core.run ks.length s = .next (s.afterWrites a b d left rest) := by
  induction ks generalizing s left with
  | nil => exact absurd rfl hne
  | cons k ks ih =>
    have hk : k % left.length < left.length := Nat.mod_lt _ (by simp [hlen])
    have hmem := mem_iff_mem_eraseIdx_or_getElem_eq hk
    have herase : (left.eraseIdx (k % left.length)).length = ks.length := by
      rw [List.length_eraseIdx_of_lt hk, hlen]; rfl
    rw [List.length_cons, core_run_succ (step_of_writing hs hi hp (List.getElem?_eq_getElem hk))]
    simp only [State.afterWrites, hmem, ite_or]
    cases ks with
    | nil =>
      have hlast : left.eraseIdx (k % left.length) = [] := List.eq_nil_of_length_eq_zero herase
      have hone : left.length ≤ 1 := hlen.le
      simp only [hlast, if_pos hone, List.not_mem_nil, if_false]
      rfl
    | cons k' ks =>
      have hmore : ¬ left.length ≤ 1 := by simp [hlen]
      simp only [if_neg hmore]
      exact ih hs rfl rfl herase (List.cons_ne_nil k' ks)

end

/-- Settles O40: the first turn decides the motor state of the command in `x`, and the three writes left are those of all
three motor registers. -/
theorem separateWritesEndAlike : Obligations.SeparateWritesEndAlike := by
  intro s k0 k1 k2 k3 hs ha hp hn hi
  obtain ⟨c, hc⟩ := motorCommandOf_decodePayload s.x0 s.x1 s.x2 s
  refine ⟨_, exec_of_motorCommandOf hc, ?_⟩
  have htail := step_of_separate_tail (s := s.setInputs ([k0, k1, k2, k3].map .consumerTurn)) hs rfl hp hn ha hc
  have hwrites := (core_run_succ htail).trans
    (run_writes (ks := [k1, k2, k3]) (rest := []) hs rfl rfl rfl (List.cons_ne_nil _ _))
  rw [State.afterWrites_all] at hwrites
  refine hwrites.trans ?_
  rw [runCommand_eq c s, ← hi]
  cases c <;> rfl

end Sys2Proof.Machine

/-! The PWM family: the value SAMPLE writes to `cmp`, and how `scale` rounds `d * MAX_COMPARE / 100`
(43_pwm_output.md R125 to R127). -/

namespace Sys2Proof.Machine

/-! ### The compare value in and out of range -/

section
variable {c : Config} {d : Byte}

theorem compareValue_of_le (h : d.toNat ≤ 100) : compareValue c d = scale c.maxCompare d.toNat :=
  if_pos h

/-- Above 100 the free value is cut to the width of `cmp` (log entry 11). -/
theorem compareValue_lt_of_gt (h : 100 < d.toNat) : compareValue c d < 2 ^ c.compareWidth := by
  have hfree : compareValue c d = Config.scaleUndefined d.toNat c.maxCompare % 2 ^ c.compareWidth :=
    if_neg (Nat.not_le.mpr h)
  exact hfree ▸ Nat.mod_lt _ (Nat.two_pow_pos _)

end

theorem exec_sample_eq (s : State) : exec .sample s = .next { s with cmp := compareValue s.cfg s.duty } := rfl

/-- Settles O33. -/
theorem sampleScalesTheDuty : Obligations.SampleScalesTheDuty := by
  intro s hd
  rw [exec_sample_eq, compareValue_of_le hd, scale]

/-- Settles O34: whatever the free value is, SAMPLE writes it to `cmp` and nowhere else. -/
theorem sampleOutOfRangeChangesCmpOnly : Obligations.SampleOutOfRangeChangesCmpOnly :=
  fun s hd => ⟨compareValue s.cfg s.duty, compareValue_lt_of_gt hd, exec_sample_eq s⟩

/-! ### The properties of `scale` -/

section
variable {M : Nat}

theorem scale_zero (M : Nat) : scale M 0 = 0 := by
  simp [scale]

theorem scale_hundred (M : Nat) : scale M 100 = M := by
  unfold scale
  omega

theorem scale_mono (M : Nat) : Monotone (scale M) := fun _ _ h =>
  Nat.div_le_div_right (Nat.add_le_add_right (Nat.mul_le_mul_right M h) 50)

/-- `scale` is within one half of the exact quotient (43_pwm_output.md R127 (e)), stated times 100. -/
theorem scale_within_half (M d : Nat) : 100 * scale M d ≤ d * M + 50 ∧ d * M ≤ 100 * scale M d + 50 := by
  unfold scale
  omega

/-- A multiple of 100 leaves nothing to round (43_pwm_output.md R127 (f)). -/
theorem scale_of_dvd (h : 100 ∣ M) (d : Nat) : scale M d = d * (M / 100) := by
  have hexact : d * M = 100 * (d * (M / 100)) := by
    rw [Nat.mul_left_comm, Nat.mul_div_cancel' h]
  have hhalf := scale_within_half M d
  omega

/-- From MAX_COMPARE = 100 on, a duty larger by 1 adds at least 100 to the dividend, so at least 1 to the quotient. -/
theorem scale_strictMono (h : 100 ≤ M) : StrictMono (scale M) :=
  strictMono_nat_of_lt_succ fun d => by
    unfold scale
    rw [Nat.succ_mul]
    omega

/-- Below MAX_COMPARE = 100 the 101 duties share at most 100 compare values (43_pwm_output.md R127 (g)). -/
theorem scale_shared_of_lt (h : M < 100) : ∃ d e, d < e ∧ e ≤ 100 ∧ scale M d = scale M e := by
  have hcard : (Finset.range (M + 1)).card < (Finset.range 101).card := by
    rw [Finset.card_range, Finset.card_range]
    exact Nat.succ_lt_succ h
  have hmaps : ∀ d ∈ Finset.range 101, scale M d ∈ Finset.range (M + 1) := fun d hd =>
    Finset.mem_range_succ_iff.mpr (scale_le (Finset.mem_range_succ_iff.mp hd))
  obtain ⟨d, hd, e, he, hne, heq⟩ := Finset.exists_ne_map_eq_of_card_lt_of_maps_to hcard hmaps
  rw [Finset.mem_range_succ_iff] at hd he
  rcases Nat.lt_or_gt_of_ne hne with hlt | hlt
  · exact ⟨d, e, hlt, he, heq⟩
  · exact ⟨e, d, hlt, hd, heq.symm⟩

end

/-- Settles O35: every property of R127 from the two bounds of rounding, the order of the dividends, and for (g) the
number of duties. -/
theorem scaleRoundsToNearest : Obligations.ScaleRoundsToNearest := fun M =>
  ⟨scale_zero M, scale_hundred M, fun _ _ h => scale_mono M h, fun _ => scale_le, scale_within_half M, scale_of_dvd,
    fun h _ _ heq => (scale_strictMono h).injective heq, scale_shared_of_lt⟩

end Sys2Proof.Machine

/-! The control-cycle family: CYCLE run whole as PARSE and its tail, and the same CYCLE taken one atomic step at a time
(44_control_cycle.md). -/

namespace Sys2Proof.Machine

/-! ### CYCLE run whole -/

section
variable {s t : State}

/-- Without a CYCLE in progress CYCLE is PARSE, then the tail (44_control_cycle.md R135). -/
theorem exec_cycle_of_idle (hp : s.phase = .idle) (ht : execParse s = .next t) :
    exec .cycle s = .next (cycleTail t) := by
  rw [show exec .cycle s = execCycle s from rfl, execCycle, if_pos hp, ht, andThen_next]

/-- With one in progress it does nothing (44_control_cycle.md R136). -/
theorem exec_cycle_of_busy (hp : s.phase ≠ .idle) : exec .cycle s = .next s :=
  if_neg hp

/-- The tail of CYCLE dispatches a valid frame and discards it (44_control_cycle.md R135). -/
theorem cycleTail_of_checksum_eq (hn : s.newData = true) (hc : s.x0 ^^^ s.x1 = s.x2) :
    cycleTail s = (dispatchFrame s).setNewData false := by
  rw [cycleTail, if_pos hn, checksumValid, if_pos (beq_iff_eq.mpr hc)]

/-- It pauses on an invalid one and discards it as well (44_control_cycle.md R135). -/
theorem cycleTail_of_checksum_ne (hn : s.newData = true) (hc : s.x0 ^^^ s.x1 ≠ s.x2) :
    cycleTail s = (raisePause .checksumFail s).setNewData false := by
  rw [cycleTail, if_pos hn, checksumValid, if_neg (mt beq_iff_eq.mp hc)]

/-- The tail takes no byte. -/
theorem consumerCount_cycleTail (s : State) : consumerCount (cycleTail s) = consumerCount s := by
  rw [cycleTail_eq]
  rfl

end

/-- Settles O36: PARSE answers under the invariants, and the three clauses are the three cases of the tail. -/
theorem cycleParsesThenValidatesThenDispatches : Obligations.CycleParsesThenValidatesThenDispatches := by
  intro s h hp
  obtain ⟨t, -, ht, -, -⟩ := h.execParse_parsed
  refine ⟨t, ht, fun hn => ?_, fun hn hc => ⟨dispatchFrame t, rfl, ?_⟩, fun hn hc => ?_⟩ <;>
    rw [exec_cycle_of_idle hp ht]
  · rw [cycleTail_of_none hn]
  · rw [cycleTail_of_checksum_eq hn hc]
    rfl
  · rw [cycleTail_of_checksum_ne hn hc]
    rfl

/-- Settles O37. -/
theorem cycleOnEmptyBufferChangesNothing : Obligations.CycleOnEmptyBufferChangesNothing :=
  fun _ hc hn => exec_cycle_of_none hc hn

/-! ### The atomic steps of a CYCLE -/

section
variable {s t : State} {n : Nat}

/-- `c_tick` for a CYCLE taken step by step has no effect while one is in progress (44_control_cycle.md R136). -/
theorem beginCycle_of_busy (hp : s.phase ≠ .idle) : beginCycle s = s :=
  if_neg hp

theorem beginCycle_of_idle (hp : s.phase = .idle) : beginCycle s = s.setPhase .parsing :=
  if_pos hp

/-- With nothing from the environment the CYCLE in progress goes on (44_control_cycle.md R136). -/
theorem step_of_cycle (hs : s.cfg.Supported) (hi : s.inputs = []) (hp : s.phase ≠ .idle) :
    step s = consumerStep 0 s := by
  rw [step_of_supported hs, takeTurn_nil hi]
  exact if_neg hp

/-- The atomic tail taken step by step decodes the frame by 30_encoding.md R79, and so ends as the tail of a CYCLE run
whole, which validates and dispatches it (44_control_cycle.md R135). -/
theorem tailTurn_eq_cycleTail (ha : s.cfg.dispatchAtomic = true) :
    tailTurn s = .next ((cycleTail s).setPhase .idle) := by
  cases hn : s.newData with
  | false => rw [tailTurn_of_none hn, cycleTail_of_none hn]
  | true =>
    obtain ⟨c, hc, htail⟩ := cycleTail_eq_decoded hn
    rw [tailTurn_of_frame hn ha, exec_of_motorCommandOf (hc s), htail, andThen_next, finishCycle]

/-- A run goes on from the state a shorter run gives. -/
theorem core_run_add {m : Nat} (h : core.run m s = .next t) : core.run (m + n) s = core.run n t := by
  induction m generalizing s with
  | zero =>
    obtain rfl := Host.Outcome.next.inj h
    rw [Nat.zero_add]
  | succ m ih =>
    rw [Nat.succ_add]
    cases hu : step s with
    | next u => rw [core_run_succ hu] at h ⊢; exact ih h
    | fault e => simp [Host.Core.run, show core.step s = .fault e from hu] at h
    | refused e => simp [Host.Core.run, show core.step s = .refused e from hu] at h

/-- A step of PARSE finds the exit condition or takes one pass (41_framer_ops.md R102). -/
theorem step_of_parsing (hs : s.cfg.Supported) (hi : s.inputs = []) (hp : s.phase = .parsing) :
    step s = if parseDone s = true then .next (s.setPhase .tail) else parsePass s := by
  rw [step_of_cycle hs hi (hp ▸ nofun), consumerStep_of_parsing hp]

/-- A pass of PARSE takes one of the bytes the consumer sees (41_framer_ops.md R102). -/
theorem consumerCount_parsePass (hd : parseDone s = false) (ht : parsePass s = .next t) :
    consumerCount t + 1 = consumerCount s := by
  obtain ⟨hc, -⟩ := parseDone_false_iff.mp hd
  rcases parsePass_cases hd with ⟨-, hpass⟩ | ⟨-, hpass⟩ <;> cases hpass.symm.trans ht
  rw [consumerCount_parserStep, consumerCount_ringDrop hc]
  exact Nat.succ_pred hc

/-- PARSE taken step by step: a step for each byte it takes, then the one that finds the exit condition
(41_framer_ops.md R102, 44_control_cycle.md R136). -/
theorem run_parse {k : Nat} (hs : s.cfg.Supported) (hi : s.inputs = []) (hp : s.phase = .parsing)
    (hk : consumerCount s ≤ k) (ht : parseLoop k s = .next t) :
    ∃ n, consumerCount t + n = consumerCount s ∧ core.run (n + 1) s = .next (t.setPhase .tail) := by
  induction k generalizing s with
  | zero =>
    obtain rfl := Host.Outcome.next.inj ht
    have hd : parseDone s = true := by simp [parseDone, Nat.le_zero.mp hk]
    exact ⟨0, rfl, core_run_succ ((step_of_parsing hs hi hp).trans (if_pos hd))⟩
  | succ k ih =>
    unfold parseLoop at ht
    split at ht
    · next hd =>
      obtain rfl := Host.Outcome.next.inj ht
      exact ⟨0, rfl, core_run_succ ((step_of_parsing hs hi hp).trans (if_pos hd))⟩
    · next hd =>
      obtain ⟨u, hu, hut⟩ := andThen_eq_next.mp ht
      have hleft : consumerCount u + 1 = consumerCount s := consumerCount_parsePass (by simpa using hd) hu
      have hframe := parsePass_frame hu
      obtain ⟨n, hn, hrun⟩ := ih (by rwa [hframe]) (by rw [hframe, hi]) (by rw [hframe, hp]) (by omega) hut
      refine ⟨n + 1, by omega, ?_⟩
      rw [core_run_succ ((step_of_parsing hs hi hp).trans ((if_neg hd).trans hu)), hrun]

/-- The tail of an atomic CYCLE, then no CYCLE is in progress (44_control_cycle.md R135, R136). -/
theorem step_of_tail (hs : s.cfg.Supported) (hi : s.inputs = []) (hp : s.phase = .tail)
    (ha : s.cfg.dispatchAtomic = true) : step s = .next ((cycleTail s).setPhase .idle) := by
  rw [step_of_cycle hs hi (hp ▸ nofun), consumerStep_of_tail hp, tailTurn_eq_cycleTail ha]

/-- The same from a state that differs from `t` by the progress of its CYCLE only. -/
theorem step_inContext_tail {r : OpResult} (hs : t.cfg.Supported) (ha : t.cfg.dispatchAtomic = true)
    (ht : t.inContext .idle [] r = t) : step (t.inContext .tail [] r) = .next (cycleTail t) := by
  rw [step_of_tail (by exact hs) rfl rfl (by exact ha), cycleTail_inContext]
  exact congrArg Host.Outcome.next ((cycleTail_inContext .idle [] r t).symm.trans (congrArg cycleTail ht))

end

/-- Settles O8. -/
theorem stepRunsTheCompletedFrame : Obligations.StepRunsTheCompletedFrame := by
  intro s k rest hs ha hi hp hn
  obtain ⟨c, hc⟩ := motorCommandOf_decodePayload s.x0 s.x1 s.x2 (s.setInputs rest)
  have hexec := exec_of_motorCommandOf hc
  have htail : tailTurn (s.setInputs rest) = _ := tailTurn_of_frame (by exact hn) (by exact ha)
  refine ⟨_, hexec, ?_⟩
  rw [step_of_supported hs, takeTurn_consumerTurn hi, consumerStep_of_tail (by exact hp), htail]
  exact congrArg (andThen · _) hexec

/-- Settles O38: neither form of `c_tick` starts a CYCLE within one. -/
theorem secondTickIsIgnored : Obligations.SecondTickIsIgnored := by
  intro s rest hp
  refine ⟨exec_cycle_of_busy hp, fun hs hi => ?_⟩
  rw [step_of_supported hs, takeTurn_beginCycle hi, beginCycle_of_busy (by exact hp)]
  rfl

/-- Settles O39: `c_tick`, the passes of PARSE and the tail are the CYCLE run whole with its progress recorded, at which
none of its operations looks. -/
theorem stepwiseCycleEqualsCycle : Obligations.StepwiseCycleEqualsCycle := by
  intro s h ha hp hi
  obtain ⟨t, -, ht, -, -⟩ := h.execParse_parsed
  have hcfg : t.cfg = s.cfg := by rw [parseLoop_frame ht]
  have hcontext : t.inContext .idle [] s.result = t := by rw [parseLoop_frame ht, ← hp, ← hi]; rfl
  have hbegin : step { s with inputs := [.beginCycle] } = .next (s.inContext .parsing [] s.result) := by
    rw [step_of_supported (by exact h.supported), takeTurn_beginCycle rfl, beginCycle_of_idle (by exact hp)]
    rfl
  have hloop : parseLoop (consumerCount s) (s.inContext .parsing [] s.result) =
      .next (t.inContext .parsing [] s.result) :=
    (parseLoop_inContext _ _ _ s _).trans (congrArg (inContextOf _ _ _) ht)
  obtain ⟨n, hn, hparse⟩ := run_parse (by exact h.supported) rfl rfl (consumerCount_inContext _ _ _ s).le hloop
  have htail : step (t.inContext .tail [] s.result) = .next (cycleTail t) :=
    step_inContext_tail (hcfg ▸ h.supported) (hcfg ▸ ha) hcontext
  have hsteps : 1 + (consumerCount s - consumerCount (cycleTail t)) + 2 = n + 1 + 1 + 1 := by
    rw [consumerCount_inContext, consumerCount_inContext] at hn
    rw [consumerCount_cycleTail]
    omega
  refine ⟨cycleTail t, exec_cycle_of_idle hp ht, ?_⟩
  rw [hsteps]
  calc core.run (n + 1 + 1 + 1) { s with inputs := [.beginCycle] }
      = core.run (n + 1 + 1) (s.inContext .parsing [] s.result) := core_run_succ hbegin
    _ = core.run 1 (t.inContext .tail [] s.result) := core_run_add hparse
    _ = .next (cycleTail t) := core_run_succ htail

end Sys2Proof.Machine

/-! The exception family: there is always a next state, what an idle parser and a Pause leave unchanged, strobes
asserted together, and the orders of steps that give the same result (60_exceptions.md). -/

namespace Sys2Proof

/-! ### Taking one strobe of several -/

theorem Strobe.place_lt (l : Strobe) : l.place < 5 := by
  cases l <;> decide

theorem Strobe.place_injective : Function.Injective Strobe.place := by
  intro l l' h
  cases l <;> cases l' <;> cases h <;> rfl

/-- The vector of one strobe asserts that strobe alone (30_encoding.md R83). -/
theorem Strobe.asserted_mask (l l' : Strobe) : Strobe.asserted l.mask l' = decide (l' = l) := by
  rw [Strobe.asserted, show l.mask = BitVec.twoPow 5 l.place from rfl, BitVec.getLsbD_twoPow]
  simp [l.place_lt, Strobe.place_injective.eq_iff, eq_comm]

/-- Taking a strobe leaves the others as they were (60_exceptions.md R155). -/
theorem Strobe.asserted_and_not_mask (S : BitVec 5) (l l' : Strobe) :
    Strobe.asserted (S &&& ~~~ l.mask) l' = (Strobe.asserted S l' && decide (l' ≠ l)) := by
  have hmask : l.mask.getLsbD l'.place = decide (l' = l) := Strobe.asserted_mask l l'
  simp only [Strobe.asserted, BitVec.getLsbD_and, BitVec.getLsbD_not, l'.place_lt, decide_true, Bool.true_and, hmask,
    decide_not]

/-- Without `rst`, an asserted strobe that the order prefers is taken first (60_exceptions.md R155). -/
theorem decodeStrobes_of_preferred {S : BitVec 5} {l : Strobe} (order : List Strobe) (d : Byte)
    (hrst : Strobe.asserted S .rst = false) (hl : Strobe.asserted S l = true) :
    decodeStrobes (l :: order) S d = some (l.operation d, S &&& ~~~ l.mask) := by
  simp [decodeStrobes, hrst, hl]

/-- `rst` is taken before every other strobe and leaves none asserted (30_encoding.md R83). -/
theorem decodeStrobes_of_rst {S : BitVec 5} (order : List Strobe) (d : Byte) (hrst : Strobe.asserted S .rst = true) :
    decodeStrobes order S d = some (.reset, 0) :=
  if_pos hrst

end Sys2Proof

namespace Sys2Proof.Machine

/-! ### Orders of steps -/

section
variable (s : State) (n : Nat)

/-- SAMPLE writes `cmp` only, from the parameters and `duty` (43_pwm_output.md R125). -/
theorem exec_sample_setCmp : exec .sample s = .next (s.setCmp (compareValue s.cfg s.duty)) := rfl

/-- FRAME_STEP does not look at `cmp` (41_framer_ops.md R100). -/
theorem parserStep_setCmp (b : Byte) : parserStep b (s.setCmp n) = (parserStep b s).setCmp n := by
  have hcollect : collectPayload b (s.setCmp n) = (collectPayload b s).setCmp n := by
    unfold collectPayload
    rw [State.setCmp_inFrame, State.setCmp_idx, apply_ite (State.setCmp n), apply_ite (State.setCmp n)]
    rfl
  unfold parserStep
  rw [hcollect]
  unfold markerTest
  split <;> rfl

/-- POP does not look at `cmp` (40_ringbuffer_ops.md R91). -/
theorem ringPop_setCmp : ringPop (s.setCmp n) = (ringPop s).map fun a => (a.1, a.2.setCmp n) := by
  by_cases hc : consumerCount s = 0
  · rw [ringPop, ringPop, show consumerCount (s.setCmp n) = consumerCount s from rfl, if_pos hc, if_pos hc]
    rfl
  · rw [ringPop, ringPop, show consumerCount (s.setCmp n) = consumerCount s from rfl, if_neg hc, if_neg hc,
      show readCell (s.setCmp n).rd (s.setCmp n) = readCell s.rd s from rfl]
    cases readCell s.rd s <;> rfl

/-- A pass of PARSE does not look at `cmp` (41_framer_ops.md R102). -/
theorem parsePass_setCmp : parsePass (s.setCmp n) = andThen (parsePass s) fun t => .next (t.setCmp n) := by
  unfold parsePass
  rw [ringPop_setCmp]
  rcases ringPop_cases s with ⟨-, hp⟩ | ⟨-, -, hp⟩ | ⟨-, -, hp⟩ <;> rw [hp]
  · rfl
  · exact congrArg Host.Outcome.next (parserStep_setCmp (n := n) ..)
  · rfl

/-- PUSH does not look at `cmp` (40_ringbuffer_ops.md R90). -/
theorem exec_push_setCmp (b : Byte) :
    exec (.push b) (s.setCmp n) = andThen (exec (.push b) s) fun t => .next (t.setCmp n) := by
  by_cases hf : producerCount s = s.cfg.capacity
  · rw [exec_push_of_full b hf]
    exact exec_push_of_full b hf
  · by_cases hw : s.wr.toNat < s.cfg.capacity
    · rw [exec_push_of_free b hf hw]
      exact exec_push_of_free b hf hw
    · rw [exec_push_of_no_cell b hf hw]
      exact exec_push_of_no_cell b hf hw

end

/-- SAMPLE commutes with a step that does not look at `cmp` and keeps what SAMPLE reads, the parameters and `duty`
(43_pwm_output.md R125). -/
theorem andThen_sample_comm {s : State} {f : State → StepResult}
    (hcmp : ∀ n, f (s.setCmp n) = andThen (f s) fun t => .next (t.setCmp n))
    (hkeep : ∀ t, f s = .next t → t.cfg = s.cfg ∧ t.duty = s.duty) :
    andThen (f s) (exec .sample) = andThen (exec .sample s) f := by
  calc andThen (f s) (exec .sample)
      = andThen (f s) fun t => .next (t.setCmp (compareValue s.cfg s.duty)) := by
        cases hf : f s with
        | next t =>
          obtain ⟨hcfg, hduty⟩ := hkeep t hf
          rw [andThen_next, andThen_next, exec_sample_setCmp, hcfg, hduty]
        | fault | refused => rfl
    _ = f (s.setCmp (compareValue s.cfg s.duty)) := (hcmp _).symm
    _ = andThen (exec .sample s) f := rfl

/-- Settles O53: a pass writes the read side of the ring and the parser, and no pass reads `cmp`. -/
theorem sampleAndParsePassCommute : Obligations.SampleAndParsePassCommute := by
  refine fun s => andThen_sample_comm (parsePass_setCmp s) fun t ht => ?_
  rw [parsePass_frame ht]
  exact ⟨rfl, rfl⟩

/-- Settles O52: PUSH writes the write side of the ring and `w_ack`, and does not read `cmp`. -/
theorem pushAndSampleCommute : Obligations.PushAndSampleCommute := by
  refine fun b s => andThen_sample_comm (exec_push_setCmp s · b) fun t ht => ?_
  rw [exec_push_frame ht]
  exact ⟨rfl, rfl⟩

/-! ### There is always a next state -/

/-- Settles O46: the indices name cells, and a step under accepted parameters stops on a missing cell only. -/
theorem everyStepHasANextState : Obligations.EveryStepHasANextState := by
  intro s h
  rw [step_of_supported h.supported]
  rcases takeTurn_stops s with hnext | ⟨hwr, -⟩ | ⟨hrd, -⟩
  · exact hnext
  · exact absurd h.ring.wr_lt (Nat.not_lt.mpr hwr)
  · exact absurd h.ring.rd_lt (Nat.not_lt.mpr hrd)

/-! ### Bytes that are not the marker -/

/-- An idle parser drops a byte that is not the marker: block 1 collects in-frame only, block 2 finds no marker
(41_framer_ops.md R100). -/
theorem parserStep_of_idle_of_ne_marker {s : State} {b : Byte} (hf : s.inFrame = false)
    (hb : b ≠ Config.startMarker) : parserStep b s = s := by
  have hcollect : collectPayload b s = s := by simpa [hf] using collectPayload_cases b s
  rw [parserStep, hcollect]
  exact if_neg hb

/-- Settles O25, by induction on the bytes. -/
theorem idleParserDropsGarbage : Obligations.IdleParserDropsGarbage := by
  intro bs s hf hbs
  induction bs with
  | nil => rfl
  | cons b bs ih =>
    obtain ⟨hb, hbs⟩ := List.forall_mem_cons.mp hbs
    rw [feed, parserStep_of_idle_of_ne_marker hf hb]
    exact ih hbs

/-! ### Strobes asserted together -/

/-- Settles O6. -/
theorem anyStrobeMayComeFirst : Obligations.AnyStrobeMayComeFirst :=
  fun S d l hrst hl => ⟨_, decodeStrobes_of_preferred [] d hrst hl, Strobe.asserted_and_not_mask S l⟩

/-- Settles O12: RESET leaves no strobe asserted, so the step takes the whole entry off the schedule. -/
theorem resetWinsOverOtherStrobes : Obligations.ResetWinsOverOtherStrobes := by
  intro s S d order rest hs hi hrst
  rw [step_of_supported hs, takeTurn_strobes hi (decodeStrobes_of_rst order d hrst), if_pos rfl]
  rfl

/-! ### Pause -/

/-- Settles O30: the command of every Pause row is invalid. -/
theorem pauseRowsWriteTheSafeState : Obligations.PauseRowsWriteTheSafeState := by
  intro op m c s i hi
  simp only [List.mem_cons, List.not_mem_nil, or_false] at hi
  have hinvalid : ∃ cause, motorCommandOf s i = some (.invalid cause) := by
    rcases hi with rfl | rfl | rfl | rfl <;> exact ⟨_, rfl⟩
  obtain ⟨cause, hcause⟩ := hinvalid
  exact exec_of_invalid hcause

end Sys2Proof.Machine

/-! The reset and hazards family: what RESET writes, that no step changes the parameters and a quiet machine keeps its
state, and the two orders of CLEAR and PUSH (70_reset_and_hazards.md). -/

namespace Sys2Proof

/-! ### Two strobes, one after the other -/

theorem Strobe.mask_ne_zero (l : Strobe) : l.mask ≠ 0 := by
  cases l <;> decide

end Sys2Proof

namespace Sys2Proof.Machine

/-- A strobe asserted alone is taken whatever the order prefers, and leaves none asserted (30_encoding.md R83). -/
theorem decodeStrobes_mask (order : List Strobe) (l : Strobe) (d : Byte) :
    decodeStrobes order l.mask d = some (l.operation d, 0) := by
  rcases decodeStrobes_cases order l.mask d with ⟨hrst, h⟩ | ⟨l', -, hl, h⟩ | ⟨hnone, -⟩
  · obtain rfl : Strobe.rst = l := by simpa [Strobe.asserted_mask] using hrst
    exact h
  · obtain rfl : l' = l := by simpa [Strobe.asserted_mask] using hl
    rw [h, BitVec.and_not_self]
  · simpa [Strobe.asserted_mask] using hnone l

/-- With `w_valid` and `clr` asserted, one of them is taken first and the other stays (60_exceptions.md R155). -/
theorem decodeStrobes_wValid_clr (order : List Strobe) (d : Byte) :
    decodeStrobes order 0b01010#5 d = some (Strobe.wValid.operation d, Strobe.clr.mask) ∨
    decodeStrobes order 0b01010#5 d = some (Strobe.clr.operation d, Strobe.wValid.mask) := by
  rcases decodeStrobes_cases order 0b01010#5 d with ⟨hrst, -⟩ | ⟨l, -, hl, h⟩ | ⟨hnone, -⟩
  · exact absurd hrst (by decide)
  · cases l with
    | wValid => exact .inl h
    | clr => exact .inr h
    | rst | cTick | pTick => exact absurd hl (by decide)
  · exact absurd (hnone .clr) (by decide)

/-! ### RESET -/

/-- Settles O42. -/
theorem resetWritesItsRegisters : Obligations.ResetWritesItsRegisters := exec_reset_eq

/-! ### The parameters -/

section
variable {s t : State}

/-- No instruction writes the parameters (10_state.md R38). -/
theorem exec_cfg {i : Instr} (h : exec i s = .next t) : t.cfg = s.cfg := by
  obtain ⟨-, -, -, -, -, -, -, -, -, -, hcfg, -⟩ := onlyTheirWritersChangeRegisters i s t h
  exact hcfg

/-- No instruction writes the schedule (10_state.md R38). -/
theorem exec_inputs {i : Instr} (h : exec i s = .next t) : t.inputs = s.inputs := by
  obtain ⟨-, -, -, -, -, -, -, -, -, -, -, hinputs, -⟩ := onlyTheirWritersChangeRegisters i s t h
  exact hinputs

@[simp] theorem syncLag_cfg (side : LagSide) (s : State) : (syncLag side s).cfg = s.cfg := by
  rw [syncLag_eq]

@[simp] theorem beginCycle_cfg (s : State) : (beginCycle s).cfg = s.cfg := by
  unfold beginCycle
  split <;> rfl

@[simp] theorem finishCycle_cfg (s : State) : (finishCycle s).cfg = s.cfg := rfl

@[simp] theorem writeMotor_cfg (a b : Bool) (d : Byte) (r : MotorReg) (s : State) :
    (writeMotor a b d r s).cfg = s.cfg := by
  cases r <;> rfl

@[simp] theorem writeTurn_cfg (k : Nat) (a b : Bool) (d : Byte) (left : List MotorReg) (s : State) :
    (writeTurn k a b d left s).cfg = s.cfg := by
  cases hr : left[k % left.length]? with
  | none => simp [writeTurn, hr]
  | some r =>
    rw [writeTurn_of_get hr]
    split <;> simp

theorem tailTurn_cfg (h : tailTurn s = .next t) : t.cfg = s.cfg := by
  unfold tailTurn at h
  split at h
  · obtain ⟨u, hu, hut⟩ := andThen_eq_next.mp h
    split at hut <;> obtain rfl := Host.Outcome.next.inj hut
    · exact (finishCycle_cfg u).trans (exec_cfg hu)
    · rfl
  · exact Host.Outcome.next.inj h ▸ rfl

/-- No atomic step of a CYCLE changes the parameters. -/
theorem consumerStep_cfg {k : Nat} (h : consumerStep k s = .next t) : t.cfg = s.cfg := by
  cases hp : s.phase with
  | idle =>
    rw [consumerStep_of_idle hp] at h
    exact Host.Outcome.next.inj h ▸ rfl
  | parsing =>
    rw [consumerStep_of_parsing hp] at h
    split at h
    · exact Host.Outcome.next.inj h ▸ rfl
    · rw [parsePass_frame h]
  | tail =>
    rw [consumerStep_of_tail hp] at h
    exact tailTurn_cfg h
  | writing a b d left =>
    rw [consumerStep_of_writing hp] at h
    exact Host.Outcome.next.inj h ▸ writeTurn_cfg k a b d left s

theorem quietTurn_cfg (h : quietTurn s = .next t) : t.cfg = s.cfg := by
  unfold quietTurn at h
  split_ifs at h
  · exact Host.Outcome.next.inj h ▸ syncLag_cfg .consumer s
  · exact Host.Outcome.next.inj h ▸ syncLag_cfg .producer s
  · exact consumerStep_cfg h

theorem serveStrobes_cfg {S : BitVec 5} {d : Byte} {order : List Strobe} {rest : List Input}
    (h : serveStrobes S d order rest s = .next t) : t.cfg = s.cfg := by
  unfold serveStrobes at h
  split at h
  · exact (exec_cfg h).trans (State.setInputs_cfg ..)
  · exact Host.Outcome.next.inj h ▸ State.setInputs_cfg ..

/-- No turn of the schedule changes the parameters. -/
theorem takeTurn_cfg (h : takeTurn s = .next t) : t.cfg = s.cfg := by
  unfold takeTurn at h
  split at h
  case h_1 => exact quietTurn_cfg h
  case h_2 => exact serveStrobes_cfg h
  case h_3 => exact Host.Outcome.next.inj h ▸ beginCycle_cfg _
  case h_4 rest _ => exact (consumerStep_cfg h).trans (s.setInputs_cfg rest)
  case h_5 side _ _ => exact Host.Outcome.next.inj h ▸ syncLag_cfg side _
  case h_6 rest _ => exact (exec_cfg h).trans (s.setInputs_cfg rest)

theorem supported_of_step_next (h : step s = .next t) : s.cfg.Supported := by
  by_contra hs
  rw [step_refused_iff.mpr ⟨hs, rfl⟩] at h
  cases h

/-- A SYNC step has no lag of 0 to shorten (20_memory.md R64). -/
theorem syncLag_of_no_lag (side : LagSide) (hC : s.lagC = 0) (hP : s.lagP = 0) : syncLag side s = s := by
  obtain ⟨hleC, hleP⟩ := syncLag_le side s
  have hlagC : (syncLag side s).lagC = s.lagC := by omega
  have hlagP : (syncLag side s).lagP = s.lagP := by omega
  rw [syncLag_eq]
  exact congrArg₂ (fun c p => s.setLags c p) hlagC hlagP

end

/-- Settles O47: every turn keeps the parameters, and a quiet turn without a CYCLE has only a lag to shorten. -/
theorem parametersNeverChange : Obligations.ParametersNeverChange := by
  refine ⟨fun s t h => ?_, fun s hs hi hp hC hP => ?_⟩
  · rw [step_of_supported (supported_of_step_next h)] at h
    exact takeTurn_cfg h
  · rw [step_of_supported hs, takeTurn_nil_of_lagP hi hp hC, takeTurn_sync (s.setInputs_inputs _),
      State.setInputs_singleton_nil hi, syncLag_of_no_lag .producer hC hP]

/-! ### CLEAR against PUSH -/

section
variable {s t u : State} {d : Byte} {order : List Strobe}

/-- Two strobes of one instant take two steps, each its operation run whole (60_exceptions.md R155). -/
theorem run_two_strobes {S : BitVec 5} {l l' : Strobe} (hs : s.cfg.Supported) (hi : s.inputs = [.strobes S d order])
    (hd : decodeStrobes order S d = some (l.operation d, l'.mask))
    (hu : exec (l.operation d) (s.setInputs [.strobes l'.mask d order]) = .next u)
    (ht : exec (l'.operation d) (u.setInputs []) = .next t) : core.run 2 s = .next t := by
  have hcfg : u.cfg = s.cfg := (exec_cfg hu).trans (s.setInputs_cfg _)
  have hleft : u.inputs = [.strobes l'.mask d order] := exec_inputs hu
  have hfirst : step s = .next u := by
    rw [step_of_supported hs, takeTurn_strobes hi hd, if_neg l'.mask_ne_zero, hu]
  have hsecond : step u = .next t := by
    rw [step_of_supported (hcfg ▸ hs), takeTurn_strobes hleft (decodeStrobes_mask order l' d), if_pos rfl, ht]
  rw [core_run_succ hfirst, core_run_succ hsecond]
  rfl

/-- CLEAR leaves no byte in the window (40_ringbuffer_ops.md R93). -/
@[simp] theorem contents_ringClear (s : State) : (ringClear s).contents = [] := rfl

/-- A cleared ring is not full, so it accepts the byte (40_ringbuffer_ops.md R90, R93). -/
theorem State.Inv.exec_push_ringClear (h : s.Inv) (b : Byte) :
    ∃ t, exec (.push b) (Machine.ringClear s) = .next t ∧ t.contents = [b] ∧ t.wAck = true := by
  have hclear := h.ringClear
  have hC : 0 < s.cfg.capacity := h.supported.1
  have hfree : producerCount (Machine.ringClear s) ≠ (Machine.ringClear s).cfg.capacity := by
    have hnone : producerCount (Machine.ringClear s) = 0 := by
      unfold producerCount
      split <;> rfl
    rw [hnone]
    exact hC.ne
  have hpush := exec_push_of_free b hfree hclear.ring.wr_lt
  obtain ⟨happend, -⟩ := (windowIsAQueue _ _ hclear).1 b hpush
  exact ⟨_, hpush, happend rfl, rfl⟩

/-- Where the invariants hold PUSH always answers (60_exceptions.md R145). -/
theorem State.Inv.exec_push_next (h : s.Inv) (b : Byte) : ∃ t, exec (.push b) s = .next t := by
  by_cases hf : producerCount s = s.cfg.capacity
  · exact ⟨_, exec_push_of_full b hf⟩
  · exact ⟨_, exec_push_of_free b hf h.ring.wr_lt⟩

/-- CLEAR taken first: the byte is kept (93_implementation_defined.md U12). -/
theorem State.Inv.run_clear_push {S : BitVec 5} (h : s.Inv) (hi : s.inputs = [.strobes S d order])
    (hd : decodeStrobes order S d = some (Strobe.clr.operation d, Strobe.wValid.mask)) :
    ∃ t, core.run 2 s = .next t ∧ t.contents = [d] ∧ t.wAck = true := by
  obtain ⟨t, ht, hkept⟩ := (h.setInputs []).exec_push_ringClear d
  exact ⟨t, run_two_strobes (l := .clr) (l' := .wValid) h.supported hi hd rfl ht, hkept⟩

/-- PUSH taken first: the byte is lost, whether the ring accepted it or not (93_implementation_defined.md U12). -/
theorem State.Inv.run_push_clear {S : BitVec 5} (h : s.Inv) (hi : s.inputs = [.strobes S d order])
    (hd : decodeStrobes order S d = some (Strobe.wValid.operation d, Strobe.clr.mask)) :
    ∃ t, core.run 2 s = .next t ∧ t.contents = [] := by
  obtain ⟨u, hu⟩ := (h.setInputs [.strobes Strobe.clr.mask d order]).exec_push_next d
  exact ⟨_, run_two_strobes (l := .wValid) (l' := .clr) h.supported hi hd hu rfl, contents_ringClear _⟩

end

/-- Settles O54: whatever the order prefers, one of the two is taken first and the other runs next. -/
theorem clearAgainstPushHasTwoOutcomes : Obligations.ClearAgainstPushHasTwoOutcomes := by
  intro b s h
  refine ⟨fun order hi => ?either, fun hi => ?clearFirst, fun hi => ?pushFirst⟩
  case either =>
    rcases decodeStrobes_wValid_clr order b with hd | hd
    · obtain ⟨t, ht, hlost⟩ := h.run_push_clear hi hd
      exact ⟨t, ht, .inr hlost⟩
    · obtain ⟨t, ht, hkept⟩ := h.run_clear_push hi hd
      exact ⟨t, ht, .inl hkept⟩
  case clearFirst =>
    obtain ⟨t, ht, hkept, -⟩ := h.run_clear_push hi (decodeStrobes_of_preferred [] b rfl rfl)
    exact ⟨t, ht, hkept⟩
  case pushFirst => exact h.run_push_clear hi (decodeStrobes_of_preferred [] b rfl rfl)

end Sys2Proof.Machine

/-! The fetch family: what a table word that decodes says of its bytes, where it is placed, and the step that runs it
(44_control_cycle.md, 30_encoding.md; log entries 5, 13, 18, 29). -/

namespace Sys2Proof

/-! ### The bytes of a word that decodes -/

section
variable {i : Instr} {nbits w : Nat}

theorem tableBytes_of_le (hn : nbits ≤ 16) : tableBytes nbits w = [byteOf w 0, byteOf w 1] := if_pos hn

theorem tableBytes_of_gt (hn : 16 < nbits) :
    tableBytes nbits w = [byteOf w 3, byteOf w 2, byteOf w 1, byteOf w 0] :=
  if_neg (Nat.not_le.mpr hn)

/-- A table word decodes only when the decoder takes all of its bytes. -/
theorem decode_tableBytes (h : decodeTableWord nbits w = some i) : decode (tableBytes nbits w) = .ok (i, []) := by
  unfold decodeTableWord at h
  split at h
  · next hd => rw [hd, Option.some.inj h]
  · cases h
  · cases h

/-- The first byte tells a frame from a strobe word (30_encoding.md R70; log entry 18). -/
theorem decode_cons (b : Byte) (rest : List Byte) :
    decode (b :: rest) = if b = Config.startMarker then decodeFrameBytes rest else decodeStrobeBytes b rest := rfl

/-- A strobe word that decodes has a vector in its first byte and takes its second; what follows is left (log entry
18). -/
theorem decodeStrobeBytes_eq_ok {S d : Byte} {rest rest' : List Byte}
    (h : decodeStrobeBytes S (d :: rest) = .ok (i, rest')) :
    rest' = rest ∧ S.toNat < 32 ∧ ∃ S', decodeStrobes [] (S.setWidth 5) d = some (i, S') := by
  simp only [decodeStrobeBytes] at h
  split_ifs at h with hS
  split at h
  · next S' hd =>
    cases h
    exact ⟨rfl, hS, S', hd⟩
  · cases h

/-- Two bytes decode only as a strobe word: a marker with one byte after it is a frame cut short (30_encoding.md
R81). -/
theorem decode_two_eq_ok {S d : Byte} (h : decode [S, d] = .ok (i, [])) :
    S.toNat < 32 ∧ ∃ S', decodeStrobes [] (S.setWidth 5) d = some (i, S') := by
  rw [decode_cons] at h
  split_ifs at h with hm
  · cases h
  · exact (decodeStrobeBytes_eq_ok h).2

/-- Four bytes decode whole only as a frame: a strobe word would leave two of them (30_encoding.md R70). -/
theorem decode_four_eq_ok {f0 op m c : Byte} (h : decode [f0, op, m, c] = .ok (i, [])) :
    f0 = Config.startMarker ∧ decodePayload op m c = i := by
  rw [decode_cons] at h
  split_ifs at h with hm
  · cases h
    exact ⟨hm, rfl⟩
  · cases (decodeStrobeBytes_eq_ok h).1

end

end Sys2Proof

namespace Sys2Proof.Machine

/-! ### The step after a placed word -/

section
variable {s : State} {nbits w : Nat}

/-- A strobe word is placed at the head of the schedule (log entries 5, 18). -/
theorem withFetchWord_of_strobes (hn : nbits ≤ 16) (hS : (byteOf w 0).toNat < 32) :
    s.withFetchWord nbits w = s.setInputs (.strobes ((byteOf w 0).setWidth 5) (byteOf w 1) [] :: s.inputs) := by
  simp only [State.withFetchWord, placeWord, tableBytes_of_le hn, if_pos hS]

/-- A frame word is placed as a completed frame (log entry 29). -/
theorem withFetchWord_of_frame (hn : 16 < nbits) (hm : byteOf w 3 = Config.startMarker) :
    s.withFetchWord nbits w = placeFrame (byteOf w 2) (byteOf w 1) (byteOf w 0) s := by
  simp only [State.withFetchWord, placeWord, tableBytes_of_gt hn, if_pos hm]

/-- `s` with a completed frame in `x` and a CYCLE at its tail: what a placed frame runs from. -/
def State.atTailOf (op m c : Byte) (s : State) : State :=
  { s with x0 := op, x1 := m, x2 := c, newData := true, phase := .tail }

/-- The step after a placed frame is the tail of a CYCLE on it, with the schedule as it was before. -/
theorem step_placeFrame (hs : s.cfg.Supported) (op m c : Byte) :
    step (placeFrame op m c s) = tailTurn (s.atTailOf op m c) := by
  have hstep : step (placeFrame op m c s) = takeTurn (placeFrame op m c s) := step_of_supported (by exact hs)
  rw [hstep, takeTurn_consumerTurn (rest := s.inputs) rfl]
  exact consumerStep_of_tail rfl

/-- The tail runs the command the frame decodes to, and either ends the CYCLE or keeps the motor state for three separate
writes (44_control_cycle.md R135, 93_implementation_defined.md U19). -/
theorem tailTurn_atTailOf (op m c : Byte) (s : State) :
    ∃ t, exec (decodePayload op m c) (s.atTailOf op m c) = .next t ∧
      tailTurn (s.atTailOf op m c) = .next
        (if s.cfg.dispatchAtomic = true then finishCycle t
         else (s.atTailOf op m c).setPhase (.writing t.dirA t.dirB t.duty [.dirA, .dirB, .duty])) := by
  obtain ⟨cmd, hcmd⟩ := motorCommandOf_decodePayload op m c (s.atTailOf op m c)
  have hexec := exec_of_motorCommandOf hcmd
  refine ⟨_, hexec, ?_⟩
  split
  · next ha =>
    have htail : tailTurn (s.atTailOf op m c) = _ := tailTurn_of_frame rfl (by exact ha)
    rw [htail]
    exact congrArg (andThen · _) hexec
  · next ha => exact tailTurn_of_separate (by rfl) (Bool.eq_false_of_not_eq_true ha) hcmd

end

/-- Settles O10. -/
theorem placedWordRunsNext : Obligations.PlacedWordRunsNext := by
  intro s nbits w i hs hw
  have hd := decode_tableBytes hw
  refine ⟨fun hn => ?strobes, fun hn => ?frame⟩
  case strobes =>
    rw [tableBytes_of_le hn] at hd
    obtain ⟨hS, S', hstrobes⟩ := decode_two_eq_ok hd
    refine ⟨S', hstrobes, ?_⟩
    rw [withFetchWord_of_strobes hn hS]
    exact stepRunsTheStartedOperation _ _ S' _ [] s.inputs i hs rfl hstrobes
  case frame =>
    rw [tableBytes_of_gt hn] at hd
    obtain ⟨hm, rfl⟩ := decode_four_eq_ok hd
    rw [withFetchWord_of_frame hn hm, step_placeFrame hs]
    exact tailTurn_atTailOf _ _ _ s

end Sys2Proof.Machine
